-- ==== Sys2Proof/Word.lean ====
section
/-!
DEFINITION. The plain word types of the Rotega 316 and the numbers it compares modulo a power of two.
-/

namespace Sys2Proof

/-- A byte of the replica, of a frame's content or of the configuration image. -/
abbrev Byte := BitVec 8

/-- A 16-bit word: a control word, a sequence number, a line page. -/
abbrev Word := BitVec 16

/-- One bit on the line: dominant is 0 (`false`), recessive is 1 (`true`) (01, introduction). -/
abbrev Bit := Bool

/-- The dominant level, which stands for 0. -/
abbrev dominant : Bit := false

/-- The recessive level, which stands for 1; the line rests at it. -/
abbrev recessive : Bit := true

/-- A station number, held in a byte as it travels in bodies: 0 is "no station", 1 to 30 a station,
31 "all stations" (00_scope.md, "Numbers and their comparison"). -/
abbrev Station := BitVec 8

/-- A window's number at this station. -/
abbrev WinId := Fin 16

/-- The sixteen windows in window order. -/
def allWindows : List WinId := [0, 1, 2, 3, 4, 5, 6, 7, 8, 9, 10, 11, 12, 13, 14, 15]

/-- A sequence number's standing against another (00_scope.md, "Numbers and their comparison"). -/
inductive Distance where
  | inOrder
  | ahead
  | behind
  deriving DecidableEq, Repr

/-- The distance of a received sequence number from the expected one: 0 in order, 1 to 32767 ahead,
32768 to 65535 behind. -/
def seqDistance (received expected : Word) : Distance :=
  if received - expected = 0 then .inOrder
  else if (received - expected).toNat < 32768 then .ahead else .behind

/-- A generation's standing against another (half range 128). -/
inductive GenOrder where
  | newer
  | equal
  | older
  deriving DecidableEq, Repr

/-- `g` against `h`: newer when ahead of it by 1 to 127, equal at distance 0, older otherwise. -/
def genCompare (g h : Byte) : GenOrder :=
  if g - h = 0 then .equal
  else if (g - h).toNat < 128 then .newer else .older

end Sys2Proof
end

