-- ==== Sys2Proof/Config.lean ====
section
/-!
DEFINITION. The fixed figures of the Rotega 316, each with the rule that gives it, and the one value the manual
leaves open as a constant without a body.
-/

namespace Sys2Proof.Config

/-- The idle threshold in bt (R2). -/
def idleThreshold : Nat := 16

/-- The yield interval in bt, at which the recessive-run count saturates (R2, R17). -/
def yieldInterval : Nat := 48

/-- The dominant run that is a stuck line, at which the dominant-run count saturates (R2, R11). -/
def stuckRun : Nat := 32

/-- A span in bt (00_scope.md, "Units of time"). -/
def spanBits : Nat := 1024

/-- The consecutive faults that make the line FAULTED (R21). -/
def faultLimit : Nat := 16

/-- The idle bt of automatic recovery: 8 spans (R21). -/
def recoveryBits : Nat := 8 * spanBits

/-- The value the backoff counter is loaded with (R24). -/
def backoffTop : BitVec 6 := 63

/-- A random delay is the backoff counter times this many bt (R24). -/
def delayUnit : Nat := 32

/-- The largest content of a frame in bytes (R7, chapter 11). -/
def maxContent : Nat := 284

/-- The hold's slots (R26). -/
def holdSlots : Nat := 3

/-- The post queue's entries (R59). -/
def queueEntries : Nat := 32

/-- The post queue's data bytes (R59). -/
def queueBytes : Nat := 2048

/-- The longest post (R59). -/
def postBytes : Nat := 64

/-- The records one UPDATE can carry (R66). -/
def updateRecords : Nat := 4

/-- The data bytes one UPDATE can carry (R66). -/
def updateBytes : Nat := 256

/-- The records of a deferred list (R120). -/
def deferredRecords : Nat := 24

/-- The data bytes of a deferred list (R120). -/
def deferredBytes : Nat := 1024

/-- The behind results in a row that make a restart suspected (R83). -/
def behindLimit : Nat := 4

/-- The failed attempts that make a window STALE (R93). -/
def retryLimit : Nat := 3

/-- The claims a claimant sends (R136). -/
def claimLimit : Nat := 3

/-- The out queue's entries (R154). -/
def outQueueSize : Nat := 4

/-- The in FIFO's entries (R154, R160). -/
def inFifoSize : Nat := 8

/-- The bytes of a message's payload (08, 8.1). -/
def payloadBytes : Nat := 32

/-- The image's marker (R185). -/
def imageMarker : Word := 0x5A3C

/-- The image's length (R185). -/
def imageLength : Word := 230

/-- The image bytes after the marker and the length (R184). -/
def imageRest : Nat := 226

/-- The SPI read command and its 24-bit address of 0 (R184). -/
def spiRead : List Byte := [0x03, 0, 0, 0]

/-- FREE VALUE. What a window status record shows in its two role bits for a descriptor whose role code is above 3:
R51 has the role read as the descriptor holds it, and two bits cannot (log 9). -/
opaque shownRole : Byte → BitVec 2

end Sys2Proof.Config
end

