-- ==== Sys2Proof/Syntax.lean ====
section
/-!
DEFINITION. The commands of the Rotega 316: one constructor per row of spec/opcode_table.json, with the operands the
row's rule gives it.
-/

namespace Sys2Proof

/-- The two cases of STUFF_VIOLATION (R6). -/
inductive StuffCause where
  /-- Seven consecutive dominant bits in FRAME. -/
  | sevenDominant
  /-- The stuff bit after a last run of six is missing when the closing delimiter is seen. -/
  | missingAtClosing
  deriving DecidableEq, Repr

/-- The commands. A word address `a` is A[16:1] and `be` is BE[1:0], bit 0 for the byte at the even address (R178);
`data` is D[15:0]. Commands of the command word take their arguments from the argument words (10.2). -/
inductive Instr where
  /-- POWER_ON (R183). -/
  | powerOn
  /-- RESET (R183). -/
  | reset
  /-- RESET_RELEASE (R183). -/
  | resetRelease
  /-- CONFIG_HEADER_READ (R185): the marker and the length as clocked in. -/
  | configHeaderRead (marker length : Word)
  /-- CONFIG_IMAGE_READ (R185): the 226 image bytes after the length, at image offsets 4 to 229. -/
  | configImageRead (rest : List Byte)
  /-- OPENING_DELIMITER (R5). -/
  | openingDelimiter
  /-- STUFF_VIOLATION (R6). -/
  | stuffViolation (cause : StuffCause)
  /-- ABORT (R6). -/
  | abort
  /-- FRAME_RECEIVED (R7): the stuffed content, the bits between the two delimiters. -/
  | frameReceived (stuffed : List Bit)
  /-- RECORD_WRITE_GRANT (R80). -/
  | recordWriteGrant
  /-- PAGE_WRITE_GRANT (R117). -/
  | pageWriteGrant
  /-- DEFERRED_RECORD_GRANT (R121). -/
  | deferredRecordGrant
  /-- LOCAL_REPLICA_READ (R33); with an address above the replica, the read cycle there (R179, R180; log 38). -/
  | localReplicaRead (a : BitVec 16) (be : BitVec 2)
  /-- LOCAL_READ_GRANT (R36). -/
  | localReadGrant
  /-- LOCAL_WRITE_PRIVATE (R33). -/
  | localWritePrivate (a : BitVec 16) (be : BitVec 2) (data : Word)
  /-- LOCAL_WRITE_WINDOW (R56). -/
  | localWriteWindow (a : BitVec 16) (be : BitVec 2) (data : Word)
  /-- LOCAL_WRITE_GRANT (R60). -/
  | localWriteGrant
  /-- POST_WAIT_EXPIRY (R63). -/
  | postWaitExpiry
  /-- OVERFLOW_WRITE_GRANT (R63). -/
  | overflowWriteGrant
  /-- LOCAL_CYCLE_ABANDON (R178). -/
  | localCycleAbandon
  /-- SWEEP_PAGE_READ_GRANT (R37). -/
  | sweepPageReadGrant
  /-- LINE_STUCK (R11). -/
  | lineStuck
  /-- LINE_IDLE (R11). -/
  | lineIdle
  /-- YIELD_INTERVAL_EXPIRY (R17). -/
  | yieldIntervalExpiry
  /-- TRANSMIT_START (R12). -/
  | transmitStart
  /-- ARBITRATION_LOST (R14). -/
  | arbitrationLost
  /-- TRANSMIT_FAULT (R15). -/
  | transmitFault
  /-- FRAME_COMPLETED (R16). -/
  | frameCompleted
  /-- JOIN_TIMER_EXPIRY (R19). -/
  | joinTimerExpiry
  /-- RECOVERY_TIMER_EXPIRY (R21). -/
  | recoveryTimerExpiry
  /-- MARK_TIMER_EXPIRY (R69). -/
  | markTimerExpiry (w : WinId)
  /-- REQUEST_DELAY_EXPIRY (R87). -/
  | requestDelayExpiry (w : WinId)
  /-- REFRESH_TIMEOUT_EXPIRY (R118). -/
  | refreshTimeoutExpiry (w : WinId)
  /-- CLAIM_TIMER_EXPIRY (R136). -/
  | claimTimerExpiry (w : WinId)
  /-- REFRESH (R95), code 0x0001. -/
  | refresh
  /-- CLAIM (R133), code 0x0002. -/
  | claim
  /-- KEEP (R140), code 0x0003. -/
  | keep
  /-- ACK_UPDATES (R172), code 0x0004. -/
  | ackUpdates
  /-- NOTIFY_ACK (R174), code 0x0005. -/
  | notifyAck
  /-- CLEAR_EVENT (R167), code 0x0006. -/
  | clearEvent
  /-- CLEAR_COUNTERS (R170), code 0x0007. -/
  | clearCounters
  /-- PROBE (R47), code 0x0008. -/
  | probe
  /-- MESSAGE_SEND (R155), code 0x0009. -/
  | messageSend
  /-- MESSAGE_POP (R161), code 0x000A. -/
  | messagePop
  /-- LINE_HALT (R20), code 0x000B. -/
  | lineHalt
  /-- LINE_RESUME (R22), code 0x000C. -/
  | lineResume
  /-- SOFT_RESTART (R190), code 0x000D. -/
  | softRestart
  /-- UNKNOWN_COMMAND (R182): a whole-word write of a code that names no command. -/
  | unknownCommand (code : Word)
  /-- MASK_WORD_WRITE (R175). -/
  | maskWordWrite (be : BitVec 2) (data : Word)
  /-- LINE_TIME_LOW_READ (R25). -/
  | lineTimeLowRead (be : BitVec 2)
  /-- LINE_TIME_HIGH_READ (R25). -/
  | lineTimeHighRead (be : BitVec 2)
  /-- STATUS_RECORD_FIRST_READ (R52). -/
  | statusRecordFirstRead (w : WinId) (be : BitVec 2)
  /-- STATUS_RECORD_WORD_READ (R52): any other word, 1 to 7, of window `w`'s record. -/
  | statusRecordWordRead (w : WinId) (word : Fin 8) (be : BitVec 2)
  /-- CONTROL_WRITE (R180): a write to an address above the replica that has no row of its own. -/
  | controlWrite (a : BitVec 16) (be : BitVec 2) (data : Word)
  /-- ARBITRATION_WON (R14). -/
  | arbitrationWon
  /-- LOCAL_CYCLE_END (R178). -/
  | localCycleEnd
  deriving DecidableEq, Repr

end Sys2Proof
end

