-- ==== Sys2Proof/WellFormed.lean ====
section
/-!
DEFINITION. Which operands spell a command of their row: the checks on one command alone, with no state.
-/

namespace Sys2Proof

/-- No seven equal bits in a row: `n` bits equal to `last` stand before the list. -/
def noSevenRun (last : Bit) (n : Nat) : List Bit → Bool
  | [] => true
  | b :: rest =>
    let n' := if b = last then n + 1 else 1
    decide (n' < 7) && noSevenRun b n' rest

/-- Bits that can stand between two delimiters: seven equal bits in a row would have ended the frame earlier or have
been a delimiter (R3, R6). -/
def stuffedContentOk (bits : List Bit) : Bool := noSevenRun dominant 0 bits

/-- A[16:1] names a word of the replica: byte addresses 0x00000 to 0x0FFFF (R179). -/
def inReplica (a : BitVec 16) : Bool := !a.msb

/-- A[16:1] of the command word, byte address 0x100A0 (chapter 11). -/
def commandWordAddr : BitVec 16 := 0x8050

/-- A[16:1] of the mask word, byte address 0x10082 (chapter 11). -/
def maskWordAddr : BitVec 16 := 0x8041

/-- A write above the replica that has no row of its own: not the mask word, and not a whole-word write of the command
word. -/
def isControlWrite (a : BitVec 16) (be : BitVec 2) : Bool :=
  !inReplica a && !decide (a = maskWordAddr) && !(decide (a = commandWordAddr) && decide (be = 3))

/-- The command codes of chapter 11 are 0x0001 to 0x000D. -/
def namesCommand (code : Word) : Bool := decide (1 ≤ code.toNat) && decide (code.toNat ≤ 13)

/-- The operands spell a command of the row. -/
def Instr.wf : Instr → Bool
  | .configImageRead rest => decide (rest.length = Config.imageRest)
  | .frameReceived stuffed => stuffedContentOk stuffed
  | .localWritePrivate a _ _ => inReplica a
  | .localWriteWindow a _ _ => inReplica a
  | .unknownCommand code => !namesCommand code
  | .statusRecordWordRead _ word _ => decide (word ≠ 0)
  | .controlWrite a be _ => isControlWrite a be
  | .powerOn | .reset | .resetRelease | .configHeaderRead _ _ | .openingDelimiter | .stuffViolation _ | .abort
  | .recordWriteGrant | .pageWriteGrant | .deferredRecordGrant | .localReplicaRead _ _ | .localReadGrant
  | .localWriteGrant | .postWaitExpiry | .overflowWriteGrant | .localCycleAbandon | .sweepPageReadGrant | .lineStuck
  | .lineIdle | .yieldIntervalExpiry | .transmitStart | .arbitrationLost | .transmitFault | .frameCompleted
  | .joinTimerExpiry | .recoveryTimerExpiry | .markTimerExpiry _ | .requestDelayExpiry _ | .refreshTimeoutExpiry _
  | .claimTimerExpiry _ | .refresh | .claim | .keep | .ackUpdates | .notifyAck | .clearEvent | .clearCounters | .probe
  | .messageSend | .messagePop | .lineHalt | .lineResume | .softRestart | .maskWordWrite _ _ | .lineTimeLowRead _
  | .lineTimeHighRead _ | .statusRecordFirstRead _ _ | .arbitrationWon | .localCycleEnd => true

end Sys2Proof
end

