-- ==== Sys2Proof/Decode.lean ====
section
/-!
DEFINITION. The commands that a word spells by the table's bits: no row of spec/opcode_table.json gives its bits, so
no word spells one.
-/

namespace Sys2Proof

/-- The command the word `w` of `nbits` bits spells. The table's rows are events and bus operations and hold no bits, so
every word is refused. -/
def decodeTableWord (_nbits _w : Nat) : Option Instr := none

end Sys2Proof
end

