-- ==== Sys2Proof/Machine/State.lean ====
section
/-!
DEFINITION. The state of the Rotega 316, block by block, as plain data, and its value while the part is held in reset.
The blocks are those of 00_scope.md; each field's docstring names the rule that gives it.
-/

namespace Sys2Proof.Machine

/-! ### Frames (chapter 11) -/

/-- The origin of a sweep (06, 6.1). -/
inductive Origin where
  | requested
  | start
  | takeover
  | forced
  deriving DecidableEq, Repr

/-- A record of an UPDATE, which is also what a deferred list holds (R59, 06 6.3). -/
structure PostRecord where
  seq : Word
  offset : Word
  data : List Byte
  deriving DecidableEq, Repr

/-- The body of a frame, by kind, with the fields of the body table (chapter 11). -/
inductive Body where
  | update (base : Word) (generation : Byte) (records : List PostRecord)
  | mark (base : Word) (generation : Byte) (lastSeq : Word)
  | refreshReq (base : Word) (pageCount : Byte)
  | sweepBegin (base : Word) (generation sweepId : Byte) (snapshot : Word) (pageCount : Byte) (origin : Origin)
  | sweepData (base : Word) (sweepId pageIndex : Byte) (data : List Byte)
  | sweepEnd (base : Word) (sweepId pagesSent : Byte) (abandoned : Bool)
  | claim (base : Word)
  | grant (base : Word) (generation : Byte) (nextSeq : Word) (grantee : Station) (returned : Bool)
  | deny (base : Word) (target : Station)
  | takeover (base : Word) (generation : Byte) (nextSeq : Word)
  | message (destination urgency kind subkind : Byte) (payload : List Byte)
  deriving DecidableEq, Repr

/-- A frame: the header's urgency, source station and domain, and the body, whose kind is the header's kind (R9). -/
structure Frame where
  urgency : BitVec 2
  source : Station
  domain : BitVec 4
  body : Body
  deriving DecidableEq, Repr

/-! ### Timers -/

/-- A timer that counts bt: stopped, or running with the bt it has left. A running timer with 0 left has expired and
stays so until it is restarted or stopped (R69). -/
inductive Timer where
  | stopped
  | running (left : Nat)
  deriving DecidableEq, Repr

/-- A followed window's wait timer (03, 3.4): stopped, a request delay (R86) or a refresh timeout (R118), with the bt it
has left. -/
inductive WaitTimer where
  | stopped
  | requestDelay (left : Nat)
  | refreshTimeout (left : Nat)
  deriving DecidableEq, Repr

/-! ### Windows (chapter 3) -/

/-- A window's role (R40). -/
inductive Role where
  | own
  | follow
  | share
  deriving DecidableEq, Repr

/-- When an update of a window is an occurrence (R171). -/
inductive NotifyMode where
  | none
  | first
  | every
  deriving DecidableEq, Repr

/-- A window descriptor as the load takes it from the image (03, 3.1, R188): codes and numbers are kept as the image
holds them, so that a rejected window's status record can show them. -/
structure Descriptor where
  enable : Bool
  roleCode : Byte
  domain : Byte
  lineBase : Word
  pageCount : Byte
  localBase : Byte
  owner : Station
  notifyVector : BitVec 2
  notifyModeCode : Byte
  autoClaim : Bool
  takeoverPermitted : Bool
  deriving DecidableEq, Repr

/-- A window's load result (R51), with the reject reason of R41. -/
inductive Standing where
  | notLoaded
  | off
  | rejected (reason : Fin 10)
  | enabled
  deriving DecidableEq, Repr

/-- Ownership states (R126). -/
inductive Ownership where
  | owner
  | granting
  | follower
  | claiming
  deriving DecidableEq, Repr

/-- Sync states (R76). -/
inductive SyncState where
  | unsynced
  | synced
  | gap
  | refreshing
  | stale
  deriving DecidableEq, Repr

/-- Gap origins (R77). -/
inductive GapOrigin where
  | here
  | already
  deriving DecidableEq, Repr

/-- One window: its descriptor, its standing and its run-time fields (03, 3.4). -/
structure Window where
  /-- The descriptor (R39). -/
  desc : Descriptor
  /-- The load result (R51). -/
  standing : Standing
  /-- Ownership state (R126). -/
  ownership : Ownership
  /-- Recorded owner (R126). -/
  recordedOwner : Station
  /-- Generation (R126). -/
  generation : Byte
  /-- Next sequence (R61). -/
  nextSeq : Word
  /-- Mark timer (R69). -/
  markTimer : Timer
  /-- Mark-now flag (R70). -/
  markNow : Bool
  /-- Sync state (R76). -/
  sync : SyncState
  /-- Expected sequence (R77). -/
  expected : Option Word
  /-- Gap origin (R77). -/
  gapOrigin : Option GapOrigin
  /-- Retry count (R93). -/
  retry : Nat
  /-- Behind count (R77, R83). -/
  behind : Nat
  /-- Wait timer (R86, R118). -/
  wait : WaitTimer
  /-- Context-wait flag (R87). -/
  contextWait : Bool
  /-- Keep flag (R140). -/
  keep : Bool
  /-- Claim attempts (R134). -/
  claimAttempts : Nat
  /-- Claim timer (R135). -/
  claimTimer : Timer
  /-- Grantee (R139). -/
  grantee : Option Station
  /-- Returned flag (R146). -/
  returned : Bool
  /-- Updated flag (R171). -/
  updated : Bool
  /-- Update count (R171). -/
  updateCount : Nat
  deriving DecidableEq, Repr

/-- One entry of the line map (R44). -/
structure LineMapEntry where
  domain : Byte
  lineBase : Word
  pageCount : Byte
  window : WinId
  deriving DecidableEq, Repr

/-- The Window Table's two maps (R44). The local page map is held as the pages that have a window, each with it. -/
structure WindowMaps where
  localMap : List (Nat × WinId)
  lineMap : List LineMapEntry
  deriving DecidableEq, Repr

/-! ### Line Interface (chapter 1) -/

/-- Line states (01, 1.5). -/
inductive LineState where
  | offline
  | configFailed
  | listen
  | online
  | halted
  | faulted
  deriving DecidableEq, Repr

/-- The receiver (R5, R6). In HUNT it holds the recessive bits seen since the leading dominant bit of a candidate, if
there is one; in FRAME it holds the raw bits received since the opening delimiter, in line order. -/
inductive Receiver where
  | hunt (candidate : Option Nat)
  | frame (bits : List Bit)
  deriving DecidableEq, Repr

/-- The source of a frame on the line, as far as its completion needs it (R13). -/
inductive Source where
  | grant (w : WinId)
  | deny (w : WinId) (target : Station)
  | takeover (w : WinId)
  | claim (w : WinId)
  | update (w : WinId) (seqs : List Word)
  | mark (w : WinId)
  | refreshReq (w : WinId)
  | sweepBegin (w : WinId)
  | sweepData (w : WinId)
  | sweepEnd (w : WinId)
  | message
  deriving DecidableEq, Repr

/-- A frame the part has begun: its source, its fields as assembled, whether its source has withdrawn it meanwhile
(R13), whether its page is still to be read (R37), and how many of its bits have been driven. -/
structure OnLine where
  source : Source
  frame : Frame
  withdrawn : Bool
  pagePending : Bool
  sent : Nat
  deriving DecidableEq, Repr

/-- The transmitter (01, 1.3). -/
inductive Transmitter where
  | idle
  | arbitrate (f : OnLine)
  | send (f : OnLine)
  deriving DecidableEq, Repr

/-- The Line Interface. -/
structure LineInterface where
  /-- Line state (R18). -/
  line : LineState
  /-- Receiver (R5). -/
  rx : Receiver
  /-- Transmitter (R12). -/
  tx : Transmitter
  /-- Recessive-run count, 0 to 48 (R2). -/
  recessiveRun : Nat
  /-- Dominant-run count, 0 to 32 (R2). -/
  dominantRun : Nat
  /-- Stuck flag (R11). -/
  stuck : Bool
  /-- Yield flag (R17). -/
  yield : Bool
  /-- Consecutive-fault count, 0 to 16 (R15). -/
  faults : Nat
  /-- Recovered-once flag (R21). -/
  recoveredOnce : Bool
  /-- ONLINE has been entered since the last power-on or RESET (R19). -/
  onlineSeen : Bool
  /-- Join timer (R19). -/
  joinTimer : Timer
  /-- Recovery timer, which counts idle bt (R21). -/
  recoveryTimer : Timer
  /-- Backoff counter (R24). -/
  backoff : BitVec 6
  /-- Line time counter (R25). -/
  lineTime : BitVec 32
  /-- The captured high half of the line time counter, if one is held (R25). -/
  timeCapture : Option Word
  /-- DESIGN CHOICE, the model's own field: how many bt the model's clock has run since power-on or RESET, by which
  requests placed in one bt are told (R35; log 6). -/
  btCount : Nat
  /-- DESIGN CHOICE, the model's own field: the samples LRX will give in the next bt, oldest first. Past its end the
  line carries what this part drives, and is recessive when it drives nothing (log 16). -/
  lrx : List Bit
  deriving DecidableEq, Repr

/-! ### Receive Hold and replica memory (chapter 2) -/

/-- The write that the head frame waits for, with what is left of the frame (R30). -/
inductive Work where
  /-- A record in order, the records after it, whether a record of the frame has been applied, and whether a newer
  generation was adopted from the frame (R79, R80). -/
  | record (w : WinId) (src : Station) (r : PostRecord) (rest : List PostRecord) (applied adopted : Bool)
  /-- The page of a SWEEP_DATA for a bound context (R117). -/
  | page (w : WinId) (pageIndex : Nat) (data : List Byte)
  /-- A deferred record at the SWEEP_END, and those after it (R121). -/
  | deferred (w : WinId) (r : PostRecord) (rest : List PostRecord)
  deriving DecidableEq, Repr

/-- The Receive Hold: the occupied slots, oldest first (R26), and the write the head waits for. -/
structure ReceiveHold where
  slots : List Frame
  work : Option Work
  deriving DecidableEq, Repr

/-- The arbiter's requesters (R34). -/
inductive Requester where
  | localPort
  | writer
  | sweepReader
  deriving DecidableEq, Repr

/-- The arbiter's turn (R35). -/
inductive Turn where
  | localSide
  | internalSide
  deriving DecidableEq, Repr

/-- A waiting request and the bt in which it was placed, by the model's count of bt (R35; log 6). -/
structure Request where
  who : Requester
  placed : Nat
  deriving DecidableEq, Repr

/-- The replica arbiter: its turn, the grant in progress and the requests that wait, oldest first (R34, R35). -/
structure Arbiter where
  turn : Turn
  granted : Option Requester
  waiting : List Request
  deriving DecidableEq, Repr

/-- The replica memory: the bytes that are not 0, by rising address (R32). -/
abbrev Replica := List Host.Cell

/-- The replica memory with its arbiter. -/
structure ReplicaBlock where
  mem : Replica
  arb : Arbiter
  deriving DecidableEq, Repr

/-! ### Post Queue (chapter 4) -/

/-- A post entry (R59); its length is that of its data. -/
structure PostEntry where
  window : WinId
  seq : Word
  offset : Word
  data : List Byte
  sealed : Bool
  deriving DecidableEq, Repr

/-- The post queue, oldest entry first (R59), and whether the tail entry carries a merge hold (R65). -/
structure PostQueue where
  entries : List PostEntry
  mergeHold : Bool
  deriving DecidableEq, Repr

/-! ### Refresh Contexts and Sweep Engine (chapter 6) -/

/-- What a context takes from a SWEEP_BEGIN (R116). -/
structure Attempt where
  owner : Station
  sweepId : Byte
  snapshot : Word
  deriving DecidableEq, Repr

/-- A bound refresh context (06, 6.3). The received-page set is a list of page indexes with no repeats, in the order
they came. -/
structure Binding where
  window : WinId
  pageCount : Nat
  attempt : Option Attempt
  received : List Nat
  deferred : List PostRecord
  overflow : Bool
  deferredGap : Bool
  deriving DecidableEq, Repr

/-- A refresh context (R113). -/
inductive RefreshContext where
  | free
  | reserved (w : WinId)
  | bound (b : Binding)
  deriving DecidableEq, Repr

/-- The phase of the current sweep (06, 6.2). -/
inductive Phase where
  | beginDue
  | data
  | endDue
  deriving DecidableEq, Repr

/-- The current sweep (R104): its id and snapshot are absent until the SWEEP_BEGIN completes (R106). -/
structure Sweep where
  window : WinId
  origin : Origin
  sweepId : Option Byte
  snapshot : Option Word
  phase : Phase
  nextPage : Nat
  again : Bool
  abandon : Bool
  deriving DecidableEq, Repr

/-- The Sweep Engine: the queue, oldest first (R100), the current sweep (R104) and the sweep id counter (R106). -/
structure SweepEngine where
  queue : List (WinId × Origin)
  current : Option Sweep
  idCounter : Byte
  deriving DecidableEq, Repr

/-! ### Ownership Unit (chapter 7) -/

/-- A due frame of the Ownership Unit (R134, R140, R142, R149). A TAKEOVER carries its takeover values. -/
inductive OwnerFrame where
  | grant (w : WinId)
  | deny (w : WinId) (target : Station)
  | takeover (w : WinId) (generation : Byte) (nextSeq : Word)
  | claim (w : WinId)
  deriving DecidableEq, Repr

/-! ### Message Unit (chapter 8) -/

/-- The staging area (08, 8.1). -/
structure Staging where
  destination : Byte
  urgency : Byte
  kind : Byte
  subkind : Byte
  length : Byte
  payload : Vector Byte 32
  deriving DecidableEq, Repr

/-- An entry of the out queue (R154). -/
structure OutMessage where
  destination : Byte
  urgency : Byte
  kind : Byte
  subkind : Byte
  payload : List Byte
  deriving DecidableEq, Repr

/-- An entry of the in FIFO (R160). -/
structure InMessage where
  source : Station
  destination : Byte
  urgency : Byte
  kind : Byte
  subkind : Byte
  payload : List Byte
  deriving DecidableEq, Repr

/-- A message filter (R158). -/
structure MessageFilter where
  enable : Bool
  kind : Byte
  subkind : Byte
  deriving DecidableEq, Repr

/-- The Message Unit. -/
structure MessageUnit where
  staging : Staging
  outQueue : List OutMessage
  inFifo : List InMessage
  filters : Vector MessageFilter 6
  deriving DecidableEq, Repr

/-! ### Event and Notify Unit (chapter 9) -/

/-- Event classes (R164). -/
inductive EventClass where
  | config
  | line
  | sync
  | localPort
  | ownership
  | message
  deriving DecidableEq, Repr

/-- Causes (R166). -/
inductive Cause where
  | configWindow
  | configDefaulted
  | lineFaulted
  | lineStuck
  | duplicateStation
  | holdOverrun
  | seqGap
  | restartSuspected
  | refreshFailed
  | windowStale
  | sizeMismatch
  | deferredOverflow
  | localWriteRefused
  | postOverflow
  | postsDiscarded
  | ownershipGained
  | ownershipGiven
  | claimDenied
  | claimLost
  | claimFailed
  | forcedOwnership
  | ownershipConflict
  | messageOverflow
  deriving DecidableEq, Repr

/-- The event record (R164); no cause is cause 0. -/
structure EventRecord where
  cause : Option Cause
  window : Option WinId
  station : Option Station
  address : Option Word
  sequence : Option Word
  time : BitVec 32
  deriving DecidableEq, Repr

/-- The twelve counters (R169), in the order of chapter 11. -/
inductive Counter where
  | crcErrors
  | aborts
  | stuffErrors
  | malformed
  | unknownKind
  | overruns
  | arbLosses
  | txFaults
  | foreign
  | conflict
  | postsDiscarded
  | msgDrops
  deriving DecidableEq, Repr

/-- The Event and Notify Unit. -/
structure EventUnit where
  /-- The event record (R164). -/
  record : EventRecord
  /-- Capture hold (R164). -/
  captureHold : Bool
  /-- More-events count, 0 to 255 (R164). -/
  moreEvents : Nat
  /-- Summary set, bit 0 CONFIG to bit 5 MESSAGE (R164, chapter 11). -/
  summary : BitVec 6
  /-- An occurrence of the load that waits for its end (R168). -/
  heldOccurrence : Bool
  /-- The counters (R169). -/
  counters : Vector Word 12
  /-- The sticky flags, bit n for the nth counter (R169). -/
  sticky : BitVec 12
  /-- The pending bits (R173). -/
  pending : BitVec 4
  /-- The mask bits (R175). -/
  mask : BitVec 4
  deriving DecidableEq, Repr

/-! ### Local Port and Control (chapter 10) -/

/-- The load result (R181). -/
inductive LoadResult where
  | loading
  | good
  | badMarker
  | badLength
  | badCrc
  | badStation
  | noDomain
  deriving DecidableEq, Repr

/-- How far the configuration load has come (R184): marker and length to come, the rest of the image to come, or no
load in progress. -/
inductive LoadPhase where
  | none
  | header
  | image
  deriving DecidableEq, Repr

/-- The station parameters in force (R181, R187). -/
structure Params where
  station : Station
  domainSet : Word
  rateCode : Nat
  backoffFloor : Nat
  joinInterval : Nat
  markInterval : Nat
  refreshTimeout : Nat
  claimTimeout : Nat
  waitLimit : Nat
  eventVector : BitVec 2
  messageVector : BitVec 2
  deriving DecidableEq, Repr

/-- The result in the command status (R182). -/
inductive CommandResult where
  | none
  | done
  | refused
  deriving DecidableEq, Repr

/-- The reason in the command status (R182). -/
inductive Reason where
  | none
  | badWindow
  | wrongRole
  | wrongState
  | notSynced
  | full
  | empty
  | badArgument
  deriving DecidableEq, Repr

/-- The probe fields of the command status (R47, R182). -/
structure ProbeFields where
  found : Bool
  window : WinId
  pageIndex : Nat
  localPage : Nat
  deriving DecidableEq, Repr

/-- The command status (R182). -/
structure CommandStatus where
  code : Word
  result : CommandResult
  reason : Reason
  probe : ProbeFields
  deriving DecidableEq, Repr

/-- How far the access of a local cycle has come. -/
inductive Stage where
  /-- The access has completed; the local side has not ended the cycle yet (R178). -/
  | complete
  /-- A replica read that waits for its grant or has it (R33). -/
  | read
  /-- A write to a private page that waits for its grant or has it (R33). -/
  | privateWrite
  /-- A write held for post space, with its post wait timer (R62). -/
  | heldWrite (w : WinId) (timer : Nat)
  /-- An allowed write that waits for its grant or has it (R62). -/
  | allowedWrite (w : WinId)
  /-- An overflow write that waits for its grant or has it (R63). -/
  | overflowWrite (w : WinId)
  deriving DecidableEq, Repr

/-- The local cycle in progress (R178). -/
structure LocalCycle where
  write : Bool
  a : BitVec 16
  be : BitVec 2
  data : Word
  stage : Stage
  deriving DecidableEq, Repr

/-- What the part drives on D[15:0], by byte lane; a lane not driven, or not selected by its byte enable, is none
(R178, R194; log 10). -/
structure DataOut where
  low : Option Byte
  high : Option Byte
  deriving DecidableEq, Repr

/-- The status capture (R52): a window and the eight words of its record. -/
structure StatusCapture where
  window : WinId
  words : Vector Word 8
  deriving DecidableEq, Repr

/-- Local Port and Control. -/
structure LocalPort where
  /-- Power is coming up or RESET# is asserted (R183). -/
  inReset : Bool
  /-- SPI chip select asserted (R184). -/
  spiSelect : Bool
  /-- The bytes sent on the SPI link since the chip select was asserted (R184). -/
  spiSent : List Byte
  /-- The configuration load in progress (R184). -/
  load : LoadPhase
  /-- Load result (R181). -/
  loadResult : LoadResult
  /-- Station parameters in force (R181). -/
  params : Params
  /-- Defaulted set, bits 0 to 9 as in chapter 11 (R181). -/
  defaulted : BitVec 10
  /-- Command word (R180). -/
  commandWord : Word
  /-- Argument words (R180). -/
  args : Vector Word 4
  /-- Command status (R182). -/
  status : CommandStatus
  /-- The local cycle in progress (R178). -/
  cycle : Option LocalCycle
  /-- WAIT (R36). -/
  wait : Bool
  /-- D[15:0] as driven (R178). -/
  dataOut : DataOut
  /-- The status capture (R52). -/
  capture : Option StatusCapture
  deriving DecidableEq, Repr

/-! ### The machine -/

/-- The state: the twelve blocks of 00_scope.md (FU's and OU's per-window fields stand with the windows) and the queue
of commands that wait, first in first out. -/
structure State where
  /-- Line Interface (chapter 1). -/
  li : LineInterface
  /-- Receive Hold (chapter 2). -/
  rh : ReceiveHold
  /-- Replica memory and arbiter (chapter 2). -/
  rm : ReplicaBlock
  /-- The sixteen windows (chapters 3 to 7). -/
  windows : Vector Window 16
  /-- The window maps (R44). -/
  maps : WindowMaps
  /-- Post Queue (chapter 4). -/
  pq : PostQueue
  /-- Refresh Contexts (chapter 6). -/
  contexts : Vector RefreshContext 2
  /-- Sweep Engine (chapter 6). -/
  se : SweepEngine
  /-- The Ownership Unit's due frames, in the order they became due (R13). -/
  ownerDue : List OwnerFrame
  /-- Message Unit (chapter 8). -/
  mu : MessageUnit
  /-- Event and Notify Unit (chapter 9). -/
  en : EventUnit
  /-- Local Port and Control (chapter 10). -/
  lp : LocalPort
  /-- The commands that wait, first in first out. -/
  pending : List Instr
  deriving DecidableEq, Repr

/-! ### Stops -/

/-- The faults of the machine: there are none, because the manual names no condition that stops the part. Safe: no
step ends in a fault. -/
inductive Fault where
  deriving DecidableEq, Repr

/-- The refusals of the machine. -/
inductive Refusal where
  /-- A command that has no meaning in this model, by the mnemonic of its row. Raised only by an arm of `exec` that is
  not modelled yet; no arm raises it now. Safe: the model stops where the part goes on. -/
  | notModelled (mnemonic : String)
  deriving DecidableEq, Repr

/-! ### Reset (R183) -/

/-- A descriptor before the load: not taken (R39). DESIGN CHOICE all fields 0 (log 1). -/
def Descriptor.blank : Descriptor :=
  { enable := false, roleCode := 0, domain := 0, lineBase := 0, pageCount := 0, localBase := 0, owner := 0,
    notifyVector := 0, notifyModeCode := 0, autoClaim := false, takeoverPermitted := false }

/-- A window after power-on and RESET (R49). Its ownership state and recorded owner are set by its role at the end of
the load; before it, DESIGN CHOICE FOLLOWER and 0, "no station" (log 1). -/
def Window.initial : Window :=
  { desc := Descriptor.blank, standing := .notLoaded, ownership := .follower, recordedOwner := 0, generation := 0,
    nextSeq := 0, markTimer := .stopped, markNow := false, sync := .unsynced, expected := none, gapOrigin := none,
    retry := 0, behind := 0, wait := .stopped, contextWait := false, keep := false, claimAttempts := 0,
    claimTimer := .stopped, grantee := none, returned := false, updated := false, updateCount := 0 }

/-- The Line Interface after power-on and RESET (R1, R2, R11, R12, R15, R17, R18, R19, R21, R24, R25). The manual gives the
receiver no state before the entry to LISTEN, where it enters HUNT; the model holds HUNT with no candidate in OFFLINE and
CONFIG_FAILED too, where the receiver does not run (DESIGN CHOICE, log 37). -/
def LineInterface.initial : LineInterface :=
  { line := .offline, rx := .hunt none, tx := .idle, recessiveRun := 0, dominantRun := 0, stuck := false,
    yield := false, faults := 0, recoveredOnce := false, onlineSeen := false, joinTimer := .stopped,
    recoveryTimer := .stopped, backoff := Config.backoffTop, lineTime := 0, timeCapture := none, btCount := 0, lrx := [] }

/-- The Message Unit after power-on and RESET (R162). -/
def MessageUnit.initial : MessageUnit :=
  { staging := { destination := 0, urgency := 0, kind := 0, subkind := 0, length := 0, payload := Vector.replicate 32 0 },
    outQueue := [], inFifo := [], filters := Vector.replicate 6 { enable := false, kind := 0, subkind := 0 } }

/-- The Event and Notify Unit after power-on and RESET (R176). -/
def EventUnit.initial : EventUnit :=
  { record := { cause := none, window := none, station := none, address := none, sequence := none, time := 0 },
    captureHold := false, moreEvents := 0, summary := 0, heldOccurrence := false, counters := Vector.replicate 12 0,
    sticky := 0, pending := 0, mask := 0xF }

/-- The station parameters while the load result is not GOOD (R181). -/
def Params.blank : Params :=
  { station := 0, domainSet := 0, rateCode := 0, backoffFloor := 0, joinInterval := 0, markInterval := 0,
    refreshTimeout := 0, claimTimeout := 0, waitLimit := 0, eventVector := 0, messageVector := 0 }

/-- Probe fields with nothing found (R47, R182). -/
def ProbeFields.clear : ProbeFields := { found := false, window := 0, pageIndex := 0, localPage := 0 }

/-- Local Port and Control after power-on and RESET (R180 to R183). -/
def LocalPort.initial : LocalPort :=
  { inReset := true, spiSelect := false, spiSent := [], load := .none, loadResult := .loading, params := Params.blank,
    defaulted := 0, commandWord := 0, args := Vector.replicate 4 0,
    status := { code := 0, result := .none, reason := .none, probe := ProbeFields.clear },
    cycle := none, wait := false, dataOut := { low := none, high := none }, capture := none }

/-- The part held in reset, every piece of state at its initial value (R183), with nothing on the queue. -/
def State.reset : State :=
  { li := LineInterface.initial, rh := { slots := [], work := none },
    rm := { mem := [], arb := { turn := .localSide, granted := none, waiting := [] } },
    windows := Vector.replicate 16 Window.initial, maps := { localMap := [], lineMap := [] },
    pq := { entries := [], mergeHold := false }, contexts := Vector.replicate 2 .free,
    se := { queue := [], current := none, idCounter := 0 }, ownerDue := [], mu := MessageUnit.initial,
    en := EventUnit.initial, lp := LocalPort.initial, pending := [] }

end Sys2Proof.Machine
end

