-- ==== Sys2Proof/Machine/Ops.lean ====
section
/-!
DEFINITION. The named operations over the replica memory, the windows, the timers and the replica arbiter.
-/

namespace Sys2Proof.Machine

/-! ### The replica memory (R32) -/

/-- The byte at an address; an address that is not listed reads 0 (R32). -/
def Memory.read : Replica → Nat → Byte
  | [], _ => 0
  | (k, b) :: rest, a => if k = a then b else Memory.read rest a

/-- One byte written at an address. A byte of 0 is not listed, so equal memories are equal lists. -/
def Memory.write : Replica → Nat → Byte → Replica
  | [], a, b => if b = 0 then [] else [(a, b)]
  | (k, v) :: rest, a, b =>
    if a < k then (if b = 0 then (k, v) :: rest else (a, b) :: (k, v) :: rest)
    else if a = k then (if b = 0 then rest else (a, b) :: rest)
    else (k, v) :: Memory.write rest a b

/-- Bytes written at ascending addresses from `a`, in window order (R194). Addresses are 16 bits wide. -/
def Memory.writeBytes (m : Replica) (a : Nat) : List Byte → Replica
  | [] => m
  | b :: rest => Memory.writeBytes (Memory.write m (a % 65536) b) (a + 1) rest

/-- The bytes of the 256-byte local page `p` (R37). -/
def Memory.page (m : Replica) (p : Nat) : List Byte :=
  (List.range 256).map fun i => Memory.read m ((p * 256 + i) % 65536)

/-- Addresses strictly rising from `lo`, inside the replica, and no byte of 0 listed. -/
def Memory.wfFrom (lo : Nat) : Replica → Bool
  | [] => true
  | (k, b) :: rest => decide (lo ≤ k) && decide (k < 65536) && decide (b ≠ 0) && Memory.wfFrom (k + 1) rest

/-- The canonical form of the replica memory. -/
def Memory.wf (m : Replica) : Bool := Memory.wfFrom 0 m

/-! ### Blocks and windows -/

/-- Window `w`. -/
def State.win (s : State) (w : WinId) : Window := s.windows[w]

/-- Window `w` changed by `f`. -/
def State.modWin (s : State) (w : WinId) (f : Window → Window) : State :=
  { s with windows := s.windows.set w (f (s.win w)) }

/-- The Line Interface changed by `f`. -/
def State.modLi (s : State) (f : LineInterface → LineInterface) : State := { s with li := f s.li }

/-- The Event and Notify Unit changed by `f`. -/
def State.modEn (s : State) (f : EventUnit → EventUnit) : State := { s with en := f s.en }

/-- Local Port and Control changed by `f`. -/
def State.modLp (s : State) (f : LocalPort → LocalPort) : State := { s with lp := f s.lp }

/-- The replica arbiter changed by `f`. -/
def State.modArb (s : State) (f : Arbiter → Arbiter) : State :=
  { s with rm := { s.rm with arb := f s.rm.arb } }

/-- Bytes written to the replica from a local address. -/
def State.writeReplica (s : State) (a : Nat) (bytes : List Byte) : State :=
  { s with rm := { s.rm with mem := Memory.writeBytes s.rm.mem a bytes } }

/-- The head frame's outstanding write set. -/
def State.setWork (s : State) (wk : Option Work) : State := { s with rh := { s.rh with work := wk } }

/-- The role a code names (chapter 11). -/
def roleOfCode (code : Byte) : Option Role :=
  if code = 1 then some .own else if code = 2 then some .follow else if code = 3 then some .share else none

/-- The notify mode a code names (chapter 11). -/
def notifyModeOfCode (code : Byte) : Option NotifyMode :=
  if code = 0 then some .none else if code = 1 then some .first else if code = 2 then some .every else none

/-- The window's role, if its code is legal. -/
def Window.role (x : Window) : Option Role := roleOfCode x.desc.roleCode

/-- The window is enabled (R39). -/
def Window.enabled (x : Window) : Bool := decide (x.standing = .enabled)

/-- The window is a SHARE window (R40). -/
def Window.isShare (x : Window) : Bool := decide (x.role = some .share)

/-- The Follow Unit acts on the window: FOLLOWER or CLAIMING (chapter 5). -/
def Window.followed (x : Window) : Bool := decide (x.ownership = .follower) || decide (x.ownership = .claiming)

/-- This station owns the window: OWNER or GRANTING (R126). -/
def Window.owned (x : Window) : Bool := decide (x.ownership = .owner) || decide (x.ownership = .granting)

/-- The window's page count. -/
def Window.pages (x : Window) : Nat := x.desc.pageCount.toNat

/-- The window's size in bytes (03, 3.1). -/
def Window.size (x : Window) : Nat := x.pages * 256

/-- The local byte address of a window offset (R32). -/
def Window.localAddr (x : Window) (offset : Nat) : Nat := x.desc.localBase.toNat * 256 + offset

/-- The domain of an enabled window as a header carries it; check 4 keeps it at 15 or less (R41). -/
def Window.lineDomain (x : Window) : BitVec 4 := x.desc.domain.setWidth 4

/-- This station's number (R181). -/
def State.station (s : State) : Station := s.lp.params.station

/-- The frame the part has on the line. -/
def Transmitter.onLine : Transmitter → Option OnLine
  | .idle => none
  | .arbitrate f | .send f => some f

/-! ### Timers -/

/-- A timer started for a number of spans. -/
def Timer.ofSpans (n : Nat) : Timer := .running (n * Config.spanBits)

/-- The timer runs or has expired. -/
def Timer.isRunning : Timer → Bool
  | .stopped => false
  | .running _ => true

/-- The timer has counted to its end and has been neither restarted nor stopped (R69). -/
def Timer.expired : Timer → Bool
  | .stopped => false
  | .running n => decide (n = 0)

/-- One bt of the timer. -/
def Timer.tick : Timer → Timer
  | .stopped => .stopped
  | .running n => .running (n - 1)

/-- One bt of a wait timer (R86, R118). -/
def WaitTimer.tick : WaitTimer → WaitTimer
  | .stopped => .stopped
  | .requestDelay n => .requestDelay (n - 1)
  | .refreshTimeout n => .refreshTimeout (n - 1)

/-- A wait timer that has counted to 0 (R87, R118). -/
def WaitTimer.expired : WaitTimer → Bool
  | .stopped => false
  | .requestDelay n | .refreshTimeout n => decide (n = 0)

/-- A request delay is running (R87). -/
def WaitTimer.isDelay : WaitTimer → Bool
  | .requestDelay _ => true
  | .stopped | .refreshTimeout _ => false

/-- A refresh timeout is running (R118). -/
def WaitTimer.isTimeout : WaitTimer → Bool
  | .refreshTimeout _ => true
  | .stopped | .requestDelay _ => false

/-- A random delay in bt: the backoff counter as it stands times 32 (R24). -/
def State.drawDelay (s : State) : Nat := s.li.backoff.toNat * Config.delayUnit

/-- The refresh timeout as a window's wait timer takes it (R118). -/
def State.refreshTimer (s : State) : WaitTimer :=
  .refreshTimeout (s.lp.params.refreshTimeout * Config.spanBits)

/-- The mark timer started at 0: stopped with mark interval 0, and before the first ONLINE entry (R69). -/
def State.freshMarkTimer (s : State) : Timer :=
  if s.li.onlineSeen && decide (s.lp.params.markInterval ≠ 0) then Timer.ofSpans s.lp.params.markInterval else .stopped

/-! ### The replica arbiter (R34, R35) -/

/-- A request of the internal side (R34). -/
def Requester.internal : Requester → Bool
  | .localPort => false
  | .writer | .sweepReader => true

/-- A grant begins: after a local grant the turn is INTERNAL, after an internal grant LOCAL (R35). -/
def Arbiter.begin (b : Arbiter) (r : Requester) : Arbiter :=
  { turn := if r.internal then .localSide else .internalSide, granted := some r,
    waiting := b.waiting.filter fun q => q.who ≠ r }

/-- A request placed in bt `n`: granted at once while the arbiter is free, waiting otherwise (R34). -/
def Arbiter.request (b : Arbiter) (r : Requester) (n : Nat) : Arbiter :=
  match b.granted with
  | none => b.begin r
  | some _ => { b with waiting := b.waiting ++ [{ who := r, placed := n }] }

/-- Two requests placed in the same bt (R35). Before the first bt of the model's clock the commands alone give the order,
and their requests are of no bt (log 6). -/
def samePlacing (p q : Request) : Bool := decide (p.placed = q.placed) && decide (p.placed ≠ 0)

/-- The internal request that is served first: the older, and of two placed in the same bt the internal writer's (R35). -/
def Arbiter.firstInternal (b : Arbiter) : Option Requester :=
  match b.waiting.filter fun q => q.who.internal with
  | [] => none
  | q :: rest =>
    if rest.any fun r => decide (r.who = .writer) && samePlacing q r then some .writer else some q.who

/-- The local port waits (R35). -/
def Arbiter.localWaits (b : Arbiter) : Bool := b.waiting.any fun q => decide (q.who = .localPort)

/-- The next grant, chosen from the requests that wait (R35). -/
def Arbiter.choose (b : Arbiter) : Option Requester :=
  match b.localWaits, b.firstInternal with
  | false, r => r
  | true, none => some .localPort
  | true, some r =>
    match b.turn with
    | .localSide => some .localPort
    | .internalSide => some r

/-- The grant in progress ends, and the next one begins if a request waits (R34). -/
def Arbiter.release (b : Arbiter) : Arbiter :=
  match b.choose with
  | none => { b with granted := none }
  | some r => b.begin r

/-- A waiting request withdrawn. -/
def Arbiter.withdraw (b : Arbiter) (r : Requester) : Arbiter :=
  { b with waiting := b.waiting.filter fun q => q.who ≠ r }

/-- A request of `r` placed in bt `n`. -/
def State.requestIn (s : State) (r : Requester) (n : Nat) : State := s.modArb fun b => b.request r n

/-- The bt in which an event comes now, by the model's count: the bt that has passed last, or, from a TRANSMIT_START until
its frame's first bit is driven, the bt that the frame begins in (R12, R35; log 6). Count 0 stays 0: the model's clock has
not run. -/
def State.presentBt (s : State) : Nat :=
  if decide (s.li.btCount ≠ 0) && s.li.tx.onLine.any fun f => decide (f.sent = 0) then s.li.btCount + 1 else s.li.btCount

/-- A request of `r` placed now. -/
def State.requestGrant (s : State) (r : Requester) : State := s.requestIn r s.presentBt

/-- The grant in progress ends. -/
def State.releaseGrant (s : State) : State := s.modArb Arbiter.release

/-- `r`'s waiting request withdrawn. -/
def State.withdrawRequest (s : State) (r : Requester) : State := s.modArb fun b => b.withdraw r

/-- The grant in progress is `r`'s. -/
def State.granted (s : State) (r : Requester) : Bool := decide (s.rm.arb.granted = some r)

end Sys2Proof.Machine
end

