-- ==== Sys2Proof/Machine/Operands.lean ====
section
/-!
DEFINITION. The operand forms of the local port: byte enables and byte lanes, byte addresses, window offsets, and the
sets and numbers the argument words hold.
-/

namespace Sys2Proof.Machine

/-- BE0: the byte at the even address is selected (R178). -/
def be0 (be : BitVec 2) : Bool := be.getLsbD 0

/-- BE1: the byte at the odd address is selected (R178). -/
def be1 (be : BitVec 2) : Bool := be.getLsbD 1

/-- D[7:0] of a word. -/
def lowByte (x : Word) : Byte := x.setWidth 8

/-- D[15:8] of a word. -/
def highByte (x : Word) : Byte := (x >>> 8).setWidth 8

/-- The word with the given low and high bytes (R194). -/
def wordOf (low high : Byte) : Word := high ++ low

/-- The byte address A[16:1] followed by a 0 bit (R179). -/
def evenAddr (a : BitVec 16) : Nat := a.toNat * 2

/-- The lowest byte address a local access selects. -/
def accessAddr (a : BitVec 16) (be : BitVec 2) : Nat := if be0 be then evenAddr a else evenAddr a + 1

/-- The bytes a local write selects, from its lowest address up (R194). -/
def accessBytes (be : BitVec 2) (data : Word) : List Byte :=
  (if be0 be then [lowByte data] else []) ++ (if be1 be then [highByte data] else [])

/-- The local page of a replica word address (R33). -/
def accessPage (a : BitVec 16) : Nat := evenAddr a / 256

/-- A word as its selected byte lanes (R194; a lane not selected carries nothing, log 10). With neither byte enable a
read returns 0 (R178). -/
def driveWord (be : BitVec 2) (x : Word) : DataOut :=
  if be = 0 then { low := some 0, high := some 0 }
  else { low := if be0 be then some (lowByte x) else none, high := if be1 be then some (highByte x) else none }

/-- D[15:0] not driven. -/
def DataOut.off : DataOut := { low := none, high := none }

/-- A stored word with the bytes its byte enables select replaced (R180). -/
def mergeWord (be : BitVec 2) (old data : Word) : Word :=
  wordOf (if be0 be then lowByte data else lowByte old) (if be1 be then highByte data else highByte old)

/-- The window a window argument names: 0 to 15, or none for a greater value (R48). -/
def windowArg (x : Word) : Option WinId := if h : x.toNat < 16 then some ⟨x.toNat, h⟩ else none

/-- Window `w` is in a window set (chapter 11). -/
def inWindowSet (x : Word) (w : WinId) : Bool := x.getLsbD w.val

/-- Argument word `i`. -/
def State.arg (s : State) (i : Fin 4) : Word := s.lp.args[i]

end Sys2Proof.Machine
end

