-- ==== Sys2Proof/Machine/Bits.lean ====
section
/-!
DEFINITION. Bits on the line: byte order, the CRC, stuffing and its removal, delimiters, and the wire form of a frame's
content (R3, R4, R6, R8, R192).
-/

namespace Sys2Proof.Machine

/-- The bits of a byte, bit 7 first (chapter 11, "Frames on the line"). -/
def bitsOfByte (b : Byte) : List Bit :=
  [b.getLsbD 7, b.getLsbD 6, b.getLsbD 5, b.getLsbD 4, b.getLsbD 3, b.getLsbD 2, b.getLsbD 1, b.getLsbD 0]

/-- Bytes as bits in line order. -/
def bitsOfBytes : List Byte → List Bit
  | [] => []
  | b :: rest => bitsOfByte b ++ bitsOfBytes rest

/-- The byte of eight bits in line order. -/
def byteOfBits (b7 b6 b5 b4 b3 b2 b1 b0 : Bit) : Byte :=
  BitVec.ofBool b7 ++ BitVec.ofBool b6 ++ BitVec.ofBool b5 ++ BitVec.ofBool b4 ++ BitVec.ofBool b3 ++ BitVec.ofBool b2 ++
    BitVec.ofBool b1 ++ BitVec.ofBool b0

/-- Whole bytes taken from bits in line order; bits left over are dropped. -/
def bytesOfBits : List Bit → List Byte
  | b7 :: b6 :: b5 :: b4 :: b3 :: b2 :: b1 :: b0 :: rest => byteOfBits b7 b6 b5 b4 b3 b2 b1 b0 :: bytesOfBits rest
  | _ => []

/-- A 16-bit value as bytes, most significant first, as on the line and in the image (R192). -/
def bytesOfWord (x : Word) : List Byte := [highByte x, lowByte x]

/-- One bit through the CRC register (R8). -/
def crcStep (r : Word) (b : Bit) : Word :=
  let shifted := r <<< 1
  if Bool.xor b r.msb then shifted ^^^ 0x8005 else shifted

/-- The CRC of bytes in line order, from 0xFFFF (R8). -/
def crc (bytes : List Byte) : Word := (bitsOfBytes bytes).foldl crcStep 0xFFFF

/-- Stuffing after a run of `n` bits equal to `last` (R3): the inserted bit starts a new run of length one. -/
def stuffFrom (last : Bit) (n : Nat) : List Bit → List Bit
  | [] => []
  | b :: rest =>
    let n' := if b = last then n + 1 else 1
    if n' = 6 then b :: (!b) :: stuffFrom (!b) 1 rest else b :: stuffFrom b n' rest

/-- The stuffed content; runs count from the first content bit (R3). -/
def stuff (bits : List Bit) : List Bit := stuffFrom dominant 0 bits

/-- The content of stuffed bits, by the transmitter's rule (R6); none when a stuff bit is missing at the end. The bit
that follows a run of six is dropped, and as R3's inserted bit it starts a run of length one (DEDUCED, log 7). -/
def destuffFrom (last : Bit) (n : Nat) : List Bit → Option (List Bit)
  | [] => if n = 6 then none else some []
  | b :: rest =>
    if n = 6 then destuffFrom b 1 rest
    else (destuffFrom b (if b = last then n + 1 else 1) rest).map (b :: ·)

/-- Stuff bits removed, runs counted from the first content bit (R6). -/
def destuff (bits : List Bit) : Option (List Bit) := destuffFrom dominant 0 bits

/-- A delimiter: one dominant bit, seven recessive bits, one dominant bit (R4). -/
def delimiter : List Bit :=
  [dominant, recessive, recessive, recessive, recessive, recessive, recessive, recessive, dominant]

/-- The bits of a frame on the wire (R4). -/
def wireOf (content : List Byte) : List Bit := delimiter ++ stuff (bitsOfBytes content) ++ delimiter

/-- How many raw bits carry the arbitration field: its seven bits and any stuff bit among them (R14). -/
def arbitrationBits (content : List Byte) : Nat := (stuff ((bitsOfBytes content).take 6)).length + 1

/-- How many bits equal to `b` end the list. -/
def trailingRun (b : Bit) (bits : List Bit) : Nat := (bits.reverse.takeWhile fun x => x = b).length

end Sys2Proof.Machine
end

