-- ==== Sys2Proof/Machine/Frames.lean ====
section
/-!
DEFINITION. Frame contents: how the transmitter builds one and how the receiver judges one (R7, R9, R192, R193 and the
body table of chapter 11).
-/

namespace Sys2Proof.Machine

/-- The kind code of a body (R9). -/
def Body.kind : Body → Nat
  | .update .. => 0
  | .mark .. => 1
  | .refreshReq .. => 2
  | .sweepBegin .. => 3
  | .sweepData .. => 4
  | .sweepEnd .. => 5
  | .claim .. => 6
  | .grant .. => 7
  | .deny .. => 8
  | .takeover .. => 9
  | .message .. => 10

/-- The base page a frame names; a MESSAGE names none (R28). -/
def Body.base : Body → Option Word
  | .update b .. | .mark b .. | .refreshReq b .. | .sweepBegin b .. | .sweepData b .. | .sweepEnd b .. | .claim b
  | .grant b .. | .deny b .. | .takeover b .. => some b
  | .message .. => none

/-- The code of an origin (R193). -/
def Origin.code : Origin → Byte
  | .requested => 0
  | .start => 1
  | .takeover => 2
  | .forced => 3

/-- The origin of a code (R193). -/
def originOfCode (x : Byte) : Option Origin :=
  if x = 0 then some .requested else if x = 1 then some .start else if x = 2 then some .takeover
  else if x = 3 then some .forced else none

/-- A flag as a body byte (R193). -/
def flagByte (b : Bool) : Byte := if b then 1 else 0

/-- A body byte as a flag: 0 or 1 (R193). -/
def flagOfByte (x : Byte) : Option Bool := if x = 0 then some false else if x = 1 then some true else none

/-- A number as a body byte. -/
def byteOf (n : Nat) : Byte := BitVec.ofNat 8 n

/-- The bytes of one UPDATE record (chapter 11). -/
def PostRecord.bytes (r : PostRecord) : List Byte :=
  bytesOfWord r.seq ++ bytesOfWord r.offset ++ [byteOf r.data.length] ++ r.data

/-- The body fields in line order (chapter 11). -/
def Body.bytes : Body → List Byte
  | .update b g rs => bytesOfWord b ++ [g, byteOf rs.length] ++ rs.flatMap PostRecord.bytes
  | .mark b g l => bytesOfWord b ++ [g] ++ bytesOfWord l
  | .refreshReq b n => bytesOfWord b ++ [n]
  | .sweepBegin b g i sn n o => bytesOfWord b ++ [g, i] ++ bytesOfWord sn ++ [n, o.code]
  | .sweepData b i p d => bytesOfWord b ++ [i, p] ++ d
  | .sweepEnd b i n a => bytesOfWord b ++ [i, n, flagByte a]
  | .claim b => bytesOfWord b
  | .grant b g q t r => bytesOfWord b ++ [g] ++ bytesOfWord q ++ [t, flagByte r]
  | .deny b t => bytesOfWord b ++ [t]
  | .takeover b g q => bytesOfWord b ++ [g] ++ bytesOfWord q
  | .message d u k sk p => [d, u, k, sk, byteOf p.length] ++ p

/-- The 16-bit header value: urgency, source station, kind, domain (chapter 11). -/
def Frame.header (f : Frame) : Word :=
  (f.urgency ++ (f.source.setWidth 5 : BitVec 5) ++ (BitVec.ofNat 5 f.body.kind)) ++ f.domain

/-- Header and body in line order. -/
def Frame.headerBody (f : Frame) : List Byte := bytesOfWord f.header ++ f.body.bytes

/-- The whole content: header, body, CRC high byte first (R192). -/
def Frame.content (f : Frame) : List Byte := f.headerBody ++ bytesOfWord (crc f.headerBody)

/-- A station number of one station (00_scope.md). -/
def isStation (x : Byte) : Bool := decide (1 ≤ x.toNat) && decide (x.toNat ≤ 30)

/-- `n` records taken from bytes with none left over (R193): each length 1 to 64, each offset 0 to 16383. -/
def takeRecordBytes : Nat → List Byte → Option (List PostRecord)
  | 0, bytes => if bytes.isEmpty then some [] else none
  | n + 1, s1 :: s0 :: o1 :: o0 :: l :: rest =>
    if 1 ≤ l.toNat ∧ l.toNat ≤ Config.postBytes ∧ l.toNat ≤ rest.length ∧ (wordOf o0 o1).toNat ≤ 16383 then
      (takeRecordBytes n (rest.drop l.toNat)).map
        ({ seq := wordOf s0 s1, offset := wordOf o0 o1, data := rest.take l.toNat } :: ·)
    else none
  | _ + 1, _ => none

/-- A page count 1 to 64 (R193). -/
def isPageCount (n : Byte) : Bool := decide (1 ≤ n.toNat) && decide (n.toNat ≤ 64)

/-- The body of a kind read from its bytes, if its length is the kind's and every field is legal (R193). `urgency` is the
header's, which a MESSAGE repeats. -/
def readBody (kind : Nat) (urgency : BitVec 2) (bytes : List Byte) : Option Body :=
  match kind, bytes with
  | 0, b1 :: b0 :: g :: n :: rest =>
    if 1 ≤ n.toNat ∧ n.toNat ≤ Config.updateRecords then
      (takeRecordBytes n.toNat rest).map (.update (wordOf b0 b1) g ·)
    else none
  | 1, [b1, b0, g, l1, l0] => some (.mark (wordOf b0 b1) g (wordOf l0 l1))
  | 2, [b1, b0, n] => if isPageCount n then some (.refreshReq (wordOf b0 b1) n) else none
  | 3, [b1, b0, g, i, s1, s0, n, o] =>
    if isPageCount n then (originOfCode o).map (.sweepBegin (wordOf b0 b1) g i (wordOf s0 s1) n ·) else none
  | 4, b1 :: b0 :: i :: p :: data =>
    if data.length = 256 ∧ p.toNat ≤ 63 then some (.sweepData (wordOf b0 b1) i p data) else none
  | 5, [b1, b0, i, n, a] =>
    if n.toNat ≤ 64 then (flagOfByte a).map (.sweepEnd (wordOf b0 b1) i n ·) else none
  | 6, [b1, b0] => some (.claim (wordOf b0 b1))
  | 7, [b1, b0, g, q1, q0, t, r] =>
    if isStation t then (flagOfByte r).map (.grant (wordOf b0 b1) g (wordOf q0 q1) t ·) else none
  | 8, [b1, b0, t] => if isStation t then some (.deny (wordOf b0 b1) t) else none
  | 9, [b1, b0, g, q1, q0] => some (.takeover (wordOf b0 b1) g (wordOf q0 q1))
  | 10, d :: u :: k :: sk :: l :: payload =>
    if 1 ≤ d.toNat ∧ d.toNat ≤ 31 ∧ u.toNat = urgency.toNat ∧ l.toNat ≤ Config.payloadBytes ∧ payload.length = l.toNat then
      some (.message d u k sk payload)
    else none
  | _, _ => none

/-- The urgency a kind requires (R9); a MESSAGE carries 1, 2 or 3. -/
def urgencyOk (kind : Nat) (u : BitVec 2) : Bool :=
  match kind with
  | 0 | 1 => decide (u = 1)
  | 2 | 3 | 4 | 5 => decide (u = 2)
  | 6 | 7 | 8 | 9 => decide (u = 0)
  | _ => decide (u ≠ 0)

/-- What the receiver finds at a closing delimiter (R7). -/
inductive Received where
  | malformed
  | crcError
  | unknownKind
  | good (f : Frame)
  deriving DecidableEq, Repr

/-- Check 4 of R7 on a header and a body (R193). -/
def readFrame (header : Word) (body : List Byte) : Option Frame :=
  let urgency : BitVec 2 := (header >>> 14).setWidth 2
  let source : Station := ((header >>> 9).setWidth 5).setWidth 8
  let kind : Nat := ((header >>> 4).setWidth 5).toNat
  if urgencyOk kind urgency && isStation source then
    (readBody kind urgency body).map
      fun b => { urgency := urgency, source := source, domain := header.setWidth 4, body := b }
  else none

/-- The kind code of a header (chapter 11). -/
def headerKind (header : Word) : Nat := ((header >>> 4).setWidth 5).toNat

/-- The four checks of R7 on destuffed content bits, in their order. -/
def judgeContent (bits : List Bit) : Received :=
  let bytes := bytesOfBits bits
  if bits.length % 8 ≠ 0 ∨ bits.length < 4 * 8 ∨ Config.maxContent * 8 < bits.length then .malformed
  else
    let headerBody := bytes.dropLast.dropLast
    match bytes, bytes.drop (bytes.length - 2) with
    | h1 :: h0 :: _, [c1, c0] =>
      if crc headerBody ≠ wordOf c0 c1 then .crcError
      else if 10 < headerKind (wordOf h0 h1) then .unknownKind
      else
        match readFrame (wordOf h0 h1) (headerBody.drop 2) with
        | none => .malformed
        | some f => .good f
    | _, _ => .malformed

end Sys2Proof.Machine
end

