-- ==== Sys2Proof/Machine/Flags.lean ====
section
/-!
DEFINITION. The reporting state of chapter 9 as operations: recorded events, counters with their sticky flags, update
notes, occurrences on the notify vectors and the NOTIFY outputs.
-/

namespace Sys2Proof.Machine

/-- The class of a cause (R166). -/
def Cause.eventClass : Cause → EventClass
  | .configWindow | .configDefaulted => .config
  | .lineFaulted | .lineStuck | .duplicateStation | .holdOverrun => .line
  | .seqGap | .restartSuspected | .refreshFailed | .windowStale | .sizeMismatch | .deferredOverflow => .sync
  | .localWriteRefused | .postOverflow | .postsDiscarded => .localPort
  | .ownershipGained | .ownershipGiven | .claimDenied | .claimLost | .claimFailed | .forcedOwnership
  | .ownershipConflict => .ownership
  | .messageOverflow => .message

/-- The code of a cause (R166). -/
def Cause.code : Cause → Nat
  | .configWindow => 1
  | .configDefaulted => 2
  | .lineFaulted => 3
  | .lineStuck => 4
  | .duplicateStation => 5
  | .holdOverrun => 6
  | .seqGap => 7
  | .restartSuspected => 8
  | .refreshFailed => 9
  | .windowStale => 10
  | .sizeMismatch => 11
  | .deferredOverflow => 12
  | .localWriteRefused => 13
  | .postOverflow => 14
  | .postsDiscarded => 15
  | .ownershipGained => 16
  | .ownershipGiven => 17
  | .claimDenied => 18
  | .claimLost => 19
  | .claimFailed => 20
  | .forcedOwnership => 21
  | .ownershipConflict => 22
  | .messageOverflow => 23

/-- The summary set's bit of a class (chapter 11). -/
def EventClass.bit : EventClass → BitVec 6
  | .config => 1
  | .line => 2
  | .sync => 4
  | .localPort => 8
  | .ownership => 16
  | .message => 32

/-- The place of a counter in the order of chapter 11. -/
def Counter.index : Counter → Fin 12
  | .crcErrors => 0
  | .aborts => 1
  | .stuffErrors => 2
  | .malformed => 3
  | .unknownKind => 4
  | .overruns => 5
  | .arbLosses => 6
  | .txFaults => 7
  | .foreign => 8
  | .conflict => 9
  | .postsDiscarded => 10
  | .msgDrops => 11

/-- An occurrence on a notify vector sets its pending bit (R173). -/
def EventUnit.occur (e : EventUnit) (v : BitVec 2) : EventUnit :=
  { e with pending := e.pending ||| (1 <<< v.toNat) }

/-- A NOTIFY output is asserted while its vector is pending and not masked (R175). -/
def EventUnit.notify (e : EventUnit) : BitVec 4 := e.pending &&& ~~~e.mask

/-- An event's cause with the fields its rule names; a field not named is none (R165). -/
structure EventFields where
  cause : Cause
  window : Option WinId := none
  station : Option Station := none
  address : Option Word := none
  sequence : Option Word := none
  deriving DecidableEq, Repr

/-- The record written from an event at line time `t` (R164, R165). -/
def EventFields.toRecord (f : EventFields) (t : BitVec 32) : EventRecord :=
  { cause := some f.cause, window := f.window, station := f.station, address := f.address, sequence := f.sequence,
    time := t }

/-- An event recorded at line time `t` (R165). With the hold clear it is captured, and its occurrence is given on the
event vector, or held while the load runs (`loading`, R168). With the hold set it only raises the more-events count and
enters the summary set. -/
def EventUnit.capture (e : EventUnit) (f : EventFields) (t : BitVec 32) (loading : Bool) (vector : BitVec 2) : EventUnit :=
  if e.captureHold then
    { e with moreEvents := min 255 (e.moreEvents + 1), summary := e.summary ||| f.cause.eventClass.bit }
  else if loading then
    { e with record := f.toRecord t, captureHold := true, heldOccurrence := true }
  else
    { e with record := f.toRecord t, captureHold := true }.occur vector

/-- An event recorded now (R165, R168). -/
def State.recordEvent (s : State) (f : EventFields) : State :=
  s.modEn fun e => e.capture f s.li.lineTime (decide (s.li.line = .offline)) s.lp.params.eventVector

/-- A 16-bit count increased by `n`, saturating at 65535 (R169). -/
def saturatingAdd (x : Word) (n : Nat) : Word := BitVec.ofNat 16 (min 65535 (x.toNat + n))

/-- A counter increased by `n`, with its sticky flag set (R169). -/
def EventUnit.bump (e : EventUnit) (c : Counter) (n : Nat) : EventUnit :=
  { e with counters := e.counters.set c.index (saturatingAdd e.counters[c.index] n),
           sticky := e.sticky ||| (1 <<< c.index.val) }

/-- A counter increased by `n` (R169). -/
def State.count (s : State) (c : Counter) (n : Nat := 1) : State := s.modEn fun e => e.bump c n

/-- An occurrence on a notify vector (R173). -/
def State.occurrence (s : State) (v : BitVec 2) : State := s.modEn fun e => e.occur v

/-- The occurrence an update note calls for by the window's notify mode (R171), judged on the updated flag the note
finds. -/
def Window.noteOccurs (x : Window) : Bool :=
  match notifyModeOfCode x.desc.notifyModeCode with
  | some .first => !x.updated
  | some .every => true
  | some .none | none => false

/-- An update note for window `w` (R171). -/
def State.updateNote (s : State) (w : WinId) : State :=
  let x := s.win w
  let s' := s.modWin w fun y => { y with updated := true, updateCount := min 255 (y.updateCount + 1) }
  if x.noteOccurs then s'.occurrence x.desc.notifyVector else s'

/-- The updated flags and counts of a set of windows cleared (R172). -/
def State.clearUpdates (s : State) (set : Word) : State :=
  allWindows.foldl
    (fun s w => if inWindowSet set w then s.modWin w fun y => { y with updated := false, updateCount := 0 } else s) s

/-- The capture hold, the more-events count and the summary set cleared; the record stays (R167). -/
def EventUnit.clearEvent (e : EventUnit) : EventUnit :=
  { e with captureHold := false, moreEvents := 0, summary := 0 }

/-- Every counter 0 and every sticky flag clear (R170). -/
def EventUnit.clearCounters (e : EventUnit) : EventUnit :=
  { e with counters := Vector.replicate 12 0, sticky := 0 }

end Sys2Proof.Machine
end

