-- ==== Sys2Proof/Machine/Windows.lean ====
section
/-!
DEFINITION. The Window Table: the load checks of the descriptors, the two maps, the lookups and the window argument of a
command (R39 to R48).
-/

namespace Sys2Proof.Machine

/-! ### Load checks (R41) -/

/-- An owner station byte as checks 6 and 7 judge it: above 31 it is judged as 31 (R188). -/
def judgedOwner (owner : Station) : Nat := min owner.toNat 31

/-- Ranges of `n` from `a` and of `m` from `b` share a number. -/
def rangesShare (a n b m : Nat) : Bool := decide (a < b + m) && decide (b < a + n)

/-- Two descriptors name a common local page (check 8). -/
def Descriptor.sharesLocal (d e : Descriptor) : Bool :=
  rangesShare d.localBase.toNat d.pageCount.toNat e.localBase.toNat e.pageCount.toNat

/-- Two descriptors name a common line page of one domain (check 9). -/
def Descriptor.sharesLine (d e : Descriptor) : Bool :=
  decide (d.domain = e.domain) && rangesShare d.lineBase.toNat d.pageCount.toNat e.lineBase.toNat e.pageCount.toNat

/-- The descriptor fails check `n` of R41, against the station's domain set and number and the descriptors of the earlier
enabled windows. -/
def Descriptor.fails (d : Descriptor) (domainSet : Word) (station : Station) (earlier : List Descriptor) :
    Fin 10 → Bool
  | 1 => decide (d.pageCount = 0) || decide (64 < d.pageCount.toNat)
  | 2 => decide (256 < d.localBase.toNat + d.pageCount.toNat)
  | 3 => decide (65536 < d.lineBase.toNat + d.pageCount.toNat)
  | 4 => decide (15 < d.domain.toNat) || !domainSet.getLsbD d.domain.toNat
  | 5 => (roleOfCode d.roleCode).isNone || (notifyModeOfCode d.notifyModeCode).isNone
  | 6 => decide (roleOfCode d.roleCode = some .follow) &&
      (decide (judgedOwner d.owner = 0) || decide (judgedOwner d.owner = 31) || decide (d.owner = station))
  | 7 => decide (roleOfCode d.roleCode = some .share) &&
      (decide (judgedOwner d.owner = 0) || decide (judgedOwner d.owner = 31))
  | 8 => earlier.any d.sharesLocal
  | 9 => earlier.any d.sharesLine
  | 0 => false

/-- The first check that fails: the reject reason (R41). -/
def Descriptor.rejectReason (d : Descriptor) (domainSet : Word) (station : Station) (earlier : List Descriptor) :
    Option (Fin 10) :=
  [1, 2, 3, 4, 5, 6, 7, 8, 9].find? (d.fails domainSet station earlier)

/-- A window's load result by its descriptor (R39, R41). -/
def Descriptor.standing (d : Descriptor) (domainSet : Word) (station : Station) (earlier : List Descriptor) : Standing :=
  if d.enable then
    match d.rejectReason domainSet station earlier with
    | some n => .rejected n
    | none => .enabled
  else .off

/-- The enabled windows' descriptors. -/
def State.enabledDescriptors (s : State) : List Descriptor :=
  (allWindows.filter fun w => (s.win w).enabled).map fun w => (s.win w).desc

/-- A window with its descriptor, its standing and the run-time values its role gives it (R49). R49's table has no column for
a role code that is none of its three, which a window that is off or rejected can hold: such a window takes the values of
FOLLOW and SHARE, with the owner byte as it stands (DESIGN CHOICE, log 34). -/
def Window.load (x : Window) (d : Descriptor) (standing : Standing) (station : Station) : Window :=
  { x with desc := d, standing := standing,
           ownership := if roleOfCode d.roleCode = some .own then .owner else .follower,
           recordedOwner := if roleOfCode d.roleCode = some .own then station else d.owner }

/-- Window `w` taken from its descriptor, with CONFIG_WINDOW if it is rejected (R41, R42). The windows enabled so far are
the earlier ones, because the load takes the windows in window order. -/
def State.takeWindow (s : State) (domainSet : Word) (station : Station) (w : WinId) (d : Descriptor) : State :=
  let standing := d.standing domainSet station s.enabledDescriptors
  let s' := s.modWin w fun x => x.load d standing station
  match standing with
  | .rejected _ => s'.recordEvent { cause := .configWindow, window := some w }
  | .notLoaded | .off | .enabled => s'

/-! ### The maps (R44) -/

/-- The local pages of window `w`, each with it. -/
def State.localEntries (s : State) (w : WinId) : List (Nat × WinId) :=
  (List.range (s.win w).pages).map fun i => ((s.win w).desc.localBase.toNat + i, w)

/-- The line map entry of window `w`. -/
def State.lineEntry (s : State) (w : WinId) : LineMapEntry :=
  { domain := (s.win w).desc.domain, lineBase := (s.win w).desc.lineBase, pageCount := (s.win w).desc.pageCount,
    window := w }

/-- The two maps built from the enabled windows (R44). -/
def State.buildMaps (s : State) : State :=
  let enabled := allWindows.filter fun w => (s.win w).enabled
  { s with maps := { localMap := enabled.flatMap s.localEntries, lineMap := enabled.map s.lineEntry } }

/-! ### Lookups -/

/-- The exact lookup by domain and line base page (R45). -/
def WindowMaps.exact (m : WindowMaps) (domain : BitVec 4) (base : Word) : Option WinId :=
  (m.lineMap.find? fun e => decide (e.domain.toNat = domain.toNat) && decide (e.lineBase = base)).map (·.window)

/-- The local page lookup (R46). -/
def WindowMaps.ofLocalPage (m : WindowMaps) (page : Nat) : Option WinId :=
  (m.localMap.find? fun p => decide (p.1 = page)).map (·.2)

/-- The entry holds a line page of a domain (R47). -/
def LineMapEntry.holds (e : LineMapEntry) (domain page : Word) : Bool :=
  decide (e.domain.toNat = domain.toNat) && decide (e.lineBase.toNat ≤ page.toNat) &&
    decide (page.toNat < e.lineBase.toNat + e.pageCount.toNat)

/-- The lookup of a line page by range, as the probe fields show it (R47). -/
def State.probe (s : State) (domain page : Word) : ProbeFields :=
  match s.maps.lineMap.find? fun e => e.holds domain page with
  | none => ProbeFields.clear
  | some e =>
    let index := page.toNat - e.lineBase.toNat
    { found := true, window := e.window, pageIndex := index,
      localPage := (s.win e.window).desc.localBase.toNat + index }

/-- The enabled window a window argument names; none is refused with BAD_WINDOW (R48). -/
def State.enabledWindowArg (s : State) (x : Word) : Option WinId :=
  match windowArg x with
  | none => none
  | some w => if (s.win w).enabled then some w else none

end Sys2Proof.Machine
end

