-- ==== Sys2Proof/Machine/PostQueue.lean ====
section
/-!
DEFINITION. Local writes into windows and the Post Queue (chapter 4): placing a write, room and the hold for post space,
the grants of the local port, UPDATE assembly, the removal of entries and the mark flags.
-/

namespace Sys2Proof.Machine

/-! ### The queue (R59, R60, R62) -/

/-- The data bytes of the queue (R59). -/
def PostQueue.dataBytes (q : PostQueue) : Nat := (q.entries.map fun e => e.data.length).sum

/-- The free bytes of the queue (R59). -/
def PostQueue.freeBytes (q : PostQueue) : Nat := Config.queueBytes - q.dataBytes

/-- The queue holds an entry of window `w`. -/
def PostQueue.holds (q : PostQueue) (w : WinId) : Bool := q.entries.any fun e => decide (e.window = w)

/-- Byte ranges that overlap or adjoin (R60). -/
def rangesMeet (a n b m : Nat) : Bool := decide (a ≤ b + m) && decide (b ≤ a + n)

/-- The length of the union of two ranges that meet. -/
def unionLength (a n b m : Nat) : Nat := max (a + n) (b + m) - min a b

/-- The tail entry takes a write of `w` by a merge (R60). -/
def PostEntry.merges (e : PostEntry) (w : WinId) (nextSeq : Word) (offset length : Nat) : Bool :=
  decide (e.window = w) && !e.sealed && decide (e.seq = nextSeq - 1) &&
    rangesMeet offset length e.offset.toNat e.data.length &&
    decide (unionLength offset length e.offset.toNat e.data.length ≤ Config.postBytes)

/-- The write would merge into the tail (R60). -/
def PostQueue.wouldMerge (q : PostQueue) (w : WinId) (nextSeq : Word) (offset length : Nat) : Bool :=
  match q.entries.getLast? with
  | none => false
  | some e => e.merges w nextSeq offset length

/-- The growth a merge brings the tail entry (R62). -/
def PostQueue.growth (q : PostQueue) (offset length : Nat) : Nat :=
  match q.entries.getLast? with
  | none => 0
  | some e => unionLength offset length e.offset.toNat e.data.length - e.data.length

/-- The write fits the queue (R62). -/
def PostQueue.fits (q : PostQueue) (w : WinId) (nextSeq : Word) (offset length : Nat) : Bool :=
  if q.wouldMerge w nextSeq offset length then decide (q.growth offset length ≤ q.freeBytes)
  else decide (q.entries.length < Config.queueEntries) && decide (length ≤ q.freeBytes)

/-- The entry with a write merged in: the union of the ranges, the write's bytes where it covers (R60). -/
def PostEntry.merge (e : PostEntry) (offset : Nat) (bytes : List Byte) : PostEntry :=
  let start := min offset e.offset.toNat
  let length := unionLength offset bytes.length e.offset.toNat e.data.length
  { e with
    offset := BitVec.ofNat 16 start
    data := (List.range length).map fun i =>
      let at_ := start + i
      if offset ≤ at_ ∧ at_ < offset + bytes.length then bytes.getD (at_ - offset) 0
      else e.data.getD (at_ - e.offset.toNat) 0 }

/-- The queue with a taken write merged into its tail (R60). -/
def PostQueue.mergeTail (q : PostQueue) (offset : Nat) (bytes : List Byte) : PostQueue :=
  match q.entries.getLast? with
  | none => q
  | some e => { q with entries := q.entries.dropLast ++ [e.merge offset bytes] }

/-- A new entry at the tail (R60). -/
def PostQueue.append (q : PostQueue) (w : WinId) (seq : Word) (offset : Nat) (bytes : List Byte) : PostQueue :=
  { q with entries :=
      q.entries ++ [{ window := w, seq := seq, offset := BitVec.ofNat 16 offset, data := bytes, sealed := false }] }

/-- A taken write placed in the queue: merged, or appended with the window's next sequence (R60, R61). The choice is R60's
on the queue as it stands at the grant. R65 says that it is always the one made when the write was allowed, and the two part
in one case: a write allowed as an append behind another window's entry, when that window yields before the grant (R68) and
the tail is then an unsealed, adjoining entry of the write's own window. The model merges there (DESIGN CHOICE, log 13). -/
def State.placeWrite (s : State) (w : WinId) (offset : Nat) (bytes : List Byte) : State :=
  let next := (s.win w).nextSeq
  if s.pq.wouldMerge w next offset bytes.length then { s with pq := s.pq.mergeTail offset bytes }
  else { s with pq := s.pq.append w next offset bytes }.modWin w fun x => { x with nextSeq := x.nextSeq + 1 }

/-! ### The local write in progress (R56 to R65) -/

/-- The lowest byte address the cycle's access selects. -/
def LocalCycle.addr (c : LocalCycle) : Nat := accessAddr c.a c.be

/-- The bytes the cycle's write selects. -/
def LocalCycle.bytes (c : LocalCycle) : List Byte := accessBytes c.be c.data

/-- The window offset of the cycle's access (R46). -/
def State.windowOffset (s : State) (w : WinId) (c : LocalCycle) : Nat :=
  c.addr - (s.win w).desc.localBase.toNat * 256

/-- The cycle's taken write fits the queue as it stands (R62). -/
def State.writeFits (s : State) (w : WinId) (c : LocalCycle) : Bool :=
  s.pq.fits w (s.win w).nextSeq (s.windowOffset w c) c.bytes.length

/-- The cycle in progress at another stage. -/
def State.setStage (s : State) (c : LocalCycle) (stage : Stage) : State :=
  s.modLp fun lp => { lp with cycle := some { c with stage := stage } }

/-- WAIT asserted or deasserted. -/
def State.setWait (s : State) (b : Bool) : State := s.modLp fun lp => { lp with wait := b }

/-- The merge hold on the tail entry set or released (R65). -/
def State.setMergeHold (s : State) (b : Bool) : State := { s with pq := { s.pq with mergeHold := b } }

/-- The write is allowed: it requests the arbiter, with a merge hold if it will merge (R62, R65). -/
def State.allowWrite (s : State) (w : WinId) (c : LocalCycle) : State :=
  let merge := s.pq.wouldMerge w (s.win w).nextSeq (s.windowOffset w c) c.bytes.length
  ((s.setStage c (.allowedWrite w)).setMergeHold merge).requestGrant .localPort

/-- A held write tested again after a removal from the queue (R62). -/
def State.retestHeld (s : State) : State :=
  match s.lp.cycle with
  | none => s
  | some c =>
    match c.stage with
    | .heldWrite w _ => if s.writeFits w c then s.allowWrite w c else s
    | .complete | .read | .privateWrite | .allowedWrite _ | .overflowWrite _ => s

/-- LOCAL_WRITE_REFUSED for a write at a local byte address (R57). -/
def State.recordRefusal (s : State) (w : WinId) (addr : Nat) : State :=
  s.recordEvent
    { cause := .localWriteRefused, window := some w, station := some (s.win w).recordedOwner,
      address := some (BitVec.ofNat 16 addr) }

/-- The window a taken write in progress is bound to (R58). -/
def Stage.takenFor : Stage → Option WinId
  | .heldWrite w _ | .allowedWrite w | .overflowWrite w => some w
  | .complete | .read | .privateWrite => none

/-- A taken write of window `w` refused, as the window leaves OWNER (R58). -/
def State.refuseTaken (s : State) (w : WinId) : State :=
  match s.lp.cycle with
  | none => s
  | some c =>
    if c.stage.takenFor = some w then
      ((((s.withdrawRequest .localPort).setMergeHold false).setStage c .complete).setWait false).recordRefusal w c.addr
    else s

/-- The effect of a local write's grant on the replica, the queue and the window: a private write (R33), a taken write
(R60) and an overflow write, which skips a number, sets mark-now and records POST_OVERFLOW (R63). -/
def State.localWriteEffect (s : State) (c : LocalCycle) : State :=
  match c.stage with
  | .privateWrite => s.writeReplica c.addr c.bytes
  | .allowedWrite w =>
    ((s.writeReplica c.addr c.bytes).placeWrite w (s.windowOffset w c) c.bytes).setMergeHold false
  | .overflowWrite w =>
    let skipped := (s.win w).nextSeq
    ((s.writeReplica c.addr c.bytes).modWin w fun x => { x with nextSeq := x.nextSeq + 1, markNow := true }).recordEvent
      { cause := .postOverflow, window := some w, address := some (BitVec.ofNat 16 c.addr), sequence := some skipped }
  | .complete | .read | .heldWrite _ _ => s

/-- The local port's write grant ends: its effect, WAIT deasserted, the arbiter handed on (R34, R36). -/
def State.endLocalWrite (s : State) (c : LocalCycle) : State :=
  (((s.localWriteEffect c).setStage c .complete).setWait false).releaseGrant

/-- A taken write of `w` whose grant is in progress completes before the event that would refuse it (R34, log 5). -/
def State.finishTaken (s : State) (w : WinId) : State :=
  match s.lp.cycle with
  | none => s
  | some c => if c.stage.takenFor = some w ∧ s.granted .localPort then s.endLocalWrite c else s

/-! ### UPDATE frames (R66, R67) -/

/-- An entry as a record of an UPDATE. -/
def PostEntry.toRecord (e : PostEntry) : PostRecord := { seq := e.seq, offset := e.offset, data := e.data }

/-- An UPDATE is due (R66): the queue is not empty and its head carries no merge hold, which stands on the tail. -/
def PostQueue.updateDue (q : PostQueue) : Bool :=
  match q.entries with
  | [] => false
  | [_] => !q.mergeHold
  | _ :: _ :: _ => true

/-- How many of the entries behind the head an UPDATE of `w` takes after `n` records of `bytes` bytes; `hold` is the merge
hold on the last entry of the list (R66). -/
def takenEntries (w : WinId) (hold : Bool) : Nat → Nat → List PostEntry → Nat
  | _, _, [] => 0
  | n, bytes, e :: rest =>
    if e.window = w ∧ n < Config.updateRecords ∧ bytes + e.data.length ≤ Config.updateBytes ∧
        ¬(hold ∧ rest.isEmpty) then
      takenEntries w hold (n + 1) (bytes + e.data.length) rest + 1
    else 0

/-- How many entries the next UPDATE takes: the head, then each entry behind it until the first that fails (R66). -/
def PostQueue.taken (q : PostQueue) : Nat :=
  match q.entries with
  | [] => 0
  | e :: rest => takenEntries e.window q.mergeHold 1 e.data.length rest + 1

/-- The first `n` entries sealed (R66). -/
def PostQueue.seal (q : PostQueue) (n : Nat) : PostQueue :=
  { q with entries := (q.entries.take n).map (fun e => { e with sealed := true }) ++ q.entries.drop n }

/-- The mark timer of an owned window restarted after a completed UPDATE or MARK (R67, R72). -/
def State.restartMark (s : State) (w : WinId) : State :=
  if (s.win w).ownership = .owner then s.modWin w fun x => { x with markTimer := s.freshMarkTimer } else s

/-- The entries a completed UPDATE carried leave the queue (R67). -/
def State.updateCompleted (s : State) (w : WinId) (seqs : List Word) : State :=
  let left := s.pq.entries.dropWhile fun e => e.sealed && decide (e.window = w) && decide (e.seq ∈ seqs)
  ({ s with pq := { s.pq with entries := left } }.restartMark w).retestHeld

/-! ### Marks (R69 to R72) -/

/-- A MARK is due for window `w` (R71). -/
def State.markDue (s : State) (w : WinId) : Bool :=
  decide ((s.win w).ownership = .owner) && !s.pq.holds w && ((s.win w).markNow || (s.win w).markTimer.expired)

/-- A completed MARK (R72). A window that has become FOLLOWER keeps its flag and timer. -/
def State.markCompleted (s : State) (w : WinId) : State :=
  if (s.win w).owned then (s.modWin w fun x => { x with markNow := false }).restartMark w else s

/-! ### Removal of entries (R68, R73) -/

/-- Every entry of a yielding window removed, counted and recorded (R68). -/
def State.discardPosts (s : State) (w : WinId) : State :=
  match s.pq.entries.filter fun e => decide (e.window = w) with
  | [] => s
  | first :: rest =>
    ({ s with pq := { s.pq with entries := s.pq.entries.filter fun e => decide (e.window ≠ w) } }.count .postsDiscarded
      (rest.length + 1)).recordEvent
        { cause := .postsDiscarded, window := some w, sequence := some first.seq }

/-- Mark-now set for every window that has an entry in the queue (R73). -/
def State.markLosers (s : State) : State :=
  allWindows.foldl (fun t w => if s.pq.holds w then t.modWin w fun x => { x with markNow := true } else t) s

/-- SOFT_RESTART empties the queue (R73). -/
def State.emptyQueue (s : State) : State :=
  if s.pq.entries = [] then { s with pq := { entries := [], mergeHold := false } }
  else
    ({ s.markLosers with pq := { entries := [], mergeHold := false } }.count .postsDiscarded s.pq.entries.length).recordEvent
      { cause := .postsDiscarded }

end Sys2Proof.Machine
end

