-- ==== Sys2Proof/Machine/Sweep.lean ====
section
/-!
DEFINITION. The Sweep Engine (06, 6.1 and 6.2): additions to the sweep queue, the current sweep, completions and losses of
its frames, and abandonment.
-/

namespace Sys2Proof.Machine

/-- A sweep as it becomes current (R104). -/
def Sweep.fresh (w : WinId) (origin : Origin) : Sweep :=
  { window := w, origin := origin, sweepId := none, snapshot := none, phase := .beginDue, nextPage := 0, again := false,
    abandon := false }

/-- The head of the queue becomes current when there is no current sweep (R104). -/
def SweepEngine.promote (e : SweepEngine) : SweepEngine :=
  match e.current, e.queue with
  | none, (w, origin) :: rest => { e with queue := rest, current := some (Sweep.fresh w origin) }
  | none, [] => e
  | some _, _ => e

/-- An entry joins the queue at the tail (R100, R104). -/
def SweepEngine.add (e : SweepEngine) (w : WinId) (origin : Origin) : SweepEngine :=
  { e with queue := e.queue ++ [(w, origin)] }.promote

/-- Window `w` is in the queue. -/
def SweepEngine.queued (e : SweepEngine) (w : WinId) : Bool := e.queue.any fun p => decide (p.1 = w)

/-- The current sweep, if it is window `w`'s. -/
def SweepEngine.currentOf (e : SweepEngine) (w : WinId) : Option Sweep := e.current.filter fun c => decide (c.window = w)

/-- A REFRESH_REQ for a window this station owns (R101), once its page count has been compared. -/
def SweepEngine.request (e : SweepEngine) (w : WinId) : SweepEngine :=
  match e.currentOf w with
  | some c => if c.sweepId.isSome then { e with current := some { c with again := true } } else e
  | none => if e.queued w then e else e.add w .requested

/-- A window's START sweep (R102). -/
def SweepEngine.start (e : SweepEngine) (w : WinId) : SweepEngine :=
  match e.currentOf w with
  | some c => { e with current := some { c with origin := .start } }
  | none =>
    if e.queued w then { e with queue := e.queue.map fun p => if p.1 = w then (w, .start) else p } else e.add w .start

/-- A sweep the Ownership Unit asks for (R103). -/
def SweepEngine.ask (e : SweepEngine) (w : WinId) (origin : Origin) : SweepEngine :=
  match e.currentOf w with
  | some c => if c.abandon then { e with current := some { c with again := true } } else e
  | none => if e.queued w then e else e.add w origin

/-- An END is owed for window `w` (R111). -/
def SweepEngine.endOwed (e : SweepEngine) (w : WinId) : Bool := (e.currentOf w).any fun c => c.abandon

/-- The Sweep Engine changed by `f`. -/
def State.modSe (s : State) (f : SweepEngine → SweepEngine) : State := { s with se := f s.se }

/-- The frame on the line has a source of this kind. -/
def State.lineHas (s : State) (p : Source → Bool) : Bool := s.li.tx.onLine.any fun f => p f.source

/-- A SWEEP_BEGIN of window `w` is on the line. -/
def State.beginOnLine (s : State) (w : WinId) : Bool := s.lineHas fun src => decide (src = .sweepBegin w)

/-- A window's sweep abandoned, `onLine` telling whether its SWEEP_BEGIN is on the line (R110). -/
def SweepEngine.abandon (e : SweepEngine) (w : WinId) (onLine : Bool) : SweepEngine :=
  match e.currentOf w with
  | some c =>
    match c.phase with
    | .beginDue =>
      if onLine then { e with current := some { c with abandon := true } } else { e with current := none }.promote
    | .data | .endDue => { e with current := some { c with abandon := true, phase := .endDue } }
  | none => { e with queue := e.queue.filter fun p => decide (p.1 ≠ w) }

/-- Window `w`'s sweep abandoned, as it leaves OWNER (R110). -/
def State.abandonSweep (s : State) (w : WinId) : State := s.modSe fun e => e.abandon w (s.beginOnLine w)

/-- The current sweep cleared; its window queued again if its again flag was set and it is OWNER; the queue's head
becomes current (R108, R110). -/
def State.clearSweep (s : State) (c : Sweep) : State :=
  let again := c.again && decide ((s.win c.window).ownership = .owner)
  s.modSe fun e =>
    { e with queue := if again then e.queue ++ [(c.window, Origin.requested)] else e.queue, current := none }.promote

/-- A completed SWEEP_BEGIN with the sweep id and snapshot it carried (R106). -/
def SweepEngine.beginCompleted (e : SweepEngine) (w : WinId) (sweepId : Byte) (snapshot : Word) : SweepEngine :=
  match e.currentOf w with
  | none => e
  | some c =>
    { e with
      current := some { c with sweepId := some sweepId, snapshot := some snapshot, nextPage := 0,
                               phase := if c.abandon then .endDue else .data }
      idCounter := e.idCounter + 1 }

/-- A completed SWEEP_DATA of a window of `pages` pages (R107). -/
def SweepEngine.dataCompleted (e : SweepEngine) (w : WinId) (pages : Nat) : SweepEngine :=
  match e.currentOf w with
  | none => e
  | some c =>
    { e with current := some { c with nextPage := c.nextPage + 1,
                                      phase := if c.nextPage + 1 = pages ∨ c.abandon then .endDue else .data } }

/-- A completed SWEEP_END (R108). -/
def State.sweepEndCompleted (s : State) (w : WinId) : State :=
  match s.se.currentOf w with
  | none => s
  | some c => s.clearSweep c

/-- A SWEEP_BEGIN of an abandoned sweep lost or faulted: the current sweep is cleared (R110). Any other sweep frame stays
due (R109). -/
def State.sweepFrameLost (s : State) (src : Source) : State :=
  match src with
  | .sweepBegin w =>
    match s.se.currentOf w with
    | some c => if c.abandon then s.clearSweep c else s
    | none => s
  | .grant _ | .deny _ _ | .takeover _ | .claim _ | .update _ _ | .mark _ | .refreshReq _ | .sweepData _ | .sweepEnd _
  | .message => s

/-- A sweep frame is due (R105). -/
def State.sweepDue (s : State) : Bool :=
  match s.se.current with
  | none => false
  | some c =>
    match c.phase with
    | .beginDue => !(s.pq.mergeHold && s.pq.entries.getLast?.any fun e => decide (e.window = c.window))
    | .data | .endDue => true

/-- SOFT_RESTART empties the queue and clears the current sweep; the id counter is kept (R112). -/
def SweepEngine.clear (e : SweepEngine) : SweepEngine := { e with queue := [], current := none }

/-- The sweep reader's request withdrawn, or its grant ended with nothing sent of it (R37). -/
def State.dropPageRead (s : State) : State :=
  let s' := s.withdrawRequest .sweepReader
  if s'.granted .sweepReader then s'.releaseGrant else s'

/-- START sweeps at the first ONLINE entry (R102). -/
def State.queueStartSweeps (s : State) : State :=
  allWindows.foldl
    (fun t w => if (t.win w).enabled ∧ (t.win w).role = some .own then t.modSe fun e => e.start w else t) s

end Sys2Proof.Machine
end

