-- ==== Sys2Proof/Machine/Follow.lean ====
section
/-!
DEFINITION. The follower's state (chapter 5 and 06, 6.3): sync state entries, request delays, refresh contexts and their
reservation, binding and release.
-/

namespace Sys2Proof.Machine

/-! ### Frames withdrawn while on the line (R13) -/

/-- The frame marked as withdrawn by its source. -/
def OnLine.withdraw (f : OnLine) : OnLine := { f with withdrawn := true }

/-- The frame on the line changed. -/
def Transmitter.mapOnLine (g : OnLine → OnLine) : Transmitter → Transmitter
  | .idle => .idle
  | .arbitrate f => .arbitrate (g f)
  | .send f => .send (g f)

/-- The frame on the line withdrawn by its source, if `p` holds of the source. -/
def State.withdrawOnLine (s : State) (p : Source → Bool) : State :=
  s.modLi fun li => { li with tx := li.tx.mapOnLine fun f => if p f.source then f.withdraw else f }

/-- Window `w`'s REFRESH_REQ is on the line and has not been withdrawn (R88). -/
def State.requestOnLine (s : State) (w : WinId) : Bool :=
  s.li.tx.onLine.any fun f => decide (f.source = .refreshReq w) && !f.withdrawn

/-! ### Contexts (R113) -/

/-- Context `i`. -/
def State.ctx (s : State) (i : Fin 2) : RefreshContext := s.contexts[i]

/-- Context `i` set. -/
def State.setCtx (s : State) (i : Fin 2) (c : RefreshContext) : State := { s with contexts := s.contexts.set i c }

/-- The lowest-numbered context for which `p` holds. -/
def State.findCtx (s : State) (p : RefreshContext → Bool) : Option (Fin 2) :=
  if p (s.ctx 0) then some 0 else if p (s.ctx 1) then some 1 else none

/-- The lowest-numbered free context (R113). -/
def State.freeCtx (s : State) : Option (Fin 2) := s.findCtx fun c => decide (c = .free)

/-- The context reserved for window `w` (R87). -/
def State.reservedCtx (s : State) (w : WinId) : Option (Fin 2) := s.findCtx fun c => decide (c = .reserved w)

/-- The context is bound to window `w`. -/
def RefreshContext.isBoundTo (w : WinId) : RefreshContext → Bool
  | .bound b => decide (b.window = w)
  | .free | .reserved _ => false

/-- The context bound to window `w`. -/
def State.boundCtx (s : State) (w : WinId) : Option (Fin 2) := s.findCtx (RefreshContext.isBoundTo w)

/-- What a bound context holds. -/
def RefreshContext.binding : RefreshContext → Option Binding
  | .bound b => some b
  | .free | .reserved _ => none

/-- The binding of window `w`. -/
def State.bindingOf (s : State) (w : WinId) : Option Binding := (s.boundCtx w).bind fun i => (s.ctx i).binding

/-- The binding of window `w` changed by `f`. -/
def State.modBinding (s : State) (w : WinId) (f : Binding → Binding) : State :=
  match s.boundCtx w with
  | none => s
  | some i =>
    match s.ctx i with
    | .bound b => s.setCtx i (.bound (f b))
    | .free | .reserved _ => s

/-- A new binding of a window of `pages` pages (R113). -/
def Binding.fresh (w : WinId) (pages : Nat) : Binding :=
  { window := w, pageCount := pages, attempt := none, received := [], deferred := [], overflow := false,
    deferredGap := false }

/-! ### Delays (R86, R90) -/

/-- The wait timer as a request delay is drawn: before the first ONLINE entry it is left stopped. A delay of 0 runs out in
the bt after the draw, as a delay of one bt does (R86). -/
def State.drawnTimer (s : State) : WaitTimer :=
  if s.li.onlineSeen then .requestDelay (max 1 s.drawDelay) else .stopped

/-- A context frees: every window in context wait draws a new delay (R90). -/
def State.contextFreed (s : State) : State :=
  allWindows.foldl
    (fun t w =>
      if (t.win w).contextWait then t.modWin w fun x => { x with contextWait := false, wait := s.drawnTimer } else t) s

/-- Context `i` freed (R90, R113). -/
def State.freeContext (s : State) (i : Fin 2) : State := (s.setCtx i .free).contextFreed

/-- Window `w`'s REFRESH_REQ withdrawn: one on the line binds nothing at its completion (R89). -/
def State.withdrawRefreshReq (s : State) (w : WinId) : State := s.withdrawOnLine fun src => decide (src = .refreshReq w)

/-- Window `w`'s reservation released and its request withdrawn (R90). -/
def State.releaseReservation (s : State) (w : WinId) : State :=
  match s.reservedCtx w with
  | none => s
  | some i => (s.withdrawRefreshReq w).freeContext i

/-- Window `w`'s bound context released (R113). -/
def State.releaseBound (s : State) (w : WinId) : State :=
  match s.boundCtx w with
  | none => s
  | some i => s.freeContext i

/-! ### Entries to sync states (R76, R77, R86, R94) -/

/-- The context-wait flag cleared, any reservation released, and a delay drawn (R86). -/
def State.beginDelay (s : State) (w : WinId) : State :=
  let s' := (s.modWin w fun x => { x with contextWait := false }).releaseReservation w
  s'.modWin w fun x => { x with wait := s'.drawnTimer }

/-- Entry to GAP (R77, R86). -/
def State.enterGap (s : State) (w : WinId) : State :=
  (s.modWin w fun x => { x with sync := .gap, gapOrigin := some .here }).beginDelay w

/-- Entry to UNSYNCED (R77, R86). -/
def State.enterUnsynced (s : State) (w : WinId) : State :=
  (s.modWin w fun x => { x with sync := .unsynced, expected := none, gapOrigin := none }).beginDelay w

/-- Entry to SYNCED at an expected sequence (R77). -/
def State.enterSynced (s : State) (w : WinId) (expected : Word) : State :=
  s.modWin w fun x => { x with sync := .synced, expected := some expected, gapOrigin := none, behind := 0 }

/-- Entry to STALE (R77, R94). -/
def State.enterStale (s : State) (w : WinId) : State :=
  (s.modWin w fun x => { x with sync := .stale, gapOrigin := none, wait := .stopped, contextWait := false }).releaseReservation w

/-- Context `i` bound to window `w`, which goes to REFRESHING (R89, R91, R113, R115). -/
def State.bindContext (s : State) (i : Fin 2) (w : WinId) (origin : GapOrigin) : State :=
  (s.setCtx i (.bound (Binding.fresh w (s.win w).pages))).modWin w fun x =>
    { x with sync := .refreshing, gapOrigin := some origin, contextWait := false, wait := s.refreshTimer }

/-- The context window `w` can bind: the one reserved for it, whose request is withdrawn, else the lowest free one (R91,
R113, R115). -/
def State.bindAlready (s : State) (w : WinId) : Option State :=
  match s.reservedCtx w with
  | some i => some ((s.withdrawRefreshReq w).bindContext i w .already)
  | none => (s.freeCtx).map fun i => s.bindContext i w .already

/-! ### Requests (R87, R89) -/

/-- A request delay of window `w` has run out (R87). -/
def State.requestDelayOver (s : State) (w : WinId) : State :=
  let s' := s.modWin w fun x => { x with wait := .stopped }
  match s.freeCtx with
  | some i => s'.setCtx i (.reserved w)
  | none => s'.modWin w fun x => { x with contextWait := true }

/-- A REFRESH_REQ completed and not withdrawn binds the context reserved for its window (R89). -/
def State.refreshReqCompleted (s : State) (w : WinId) : State :=
  match s.reservedCtx w with
  | none => s
  | some i => s.bindContext i w .here

/-- The window leaves FOLLOWER and CLAIMING: its wait timer and context wait end, its reservation is released, and a bound
context is released with the window in GAP (R90, R124). -/
def State.leaveFollowed (s : State) (w : WinId) : State :=
  let s' := (s.modWin w fun x => { x with wait := .stopped, contextWait := false }).releaseReservation w
  match s'.boundCtx w with
  | none => s'
  | some i => (s'.modWin w fun x => { x with sync := .gap, gapOrigin := some .here }).freeContext i

/-! ### The write the head frame waits for (R30, R81) -/

/-- The window a write is for. -/
def Work.window : Work → WinId
  | .record w .. | .page w .. | .deferred w .. => w

/-- The changes a writer grant makes: the bytes; for a record the expected sequence and the behind count (R80); for a page
its index in the received-page set (R117). -/
def State.writerEffect (s : State) : Work → State
  | .record w _ r _ _ _ =>
    (s.writeReplica ((s.win w).localAddr r.offset.toNat) r.data).modWin w fun x =>
      { x with expected := x.expected.map (· + 1), behind := 0 }
  | .page w i data =>
    (s.writeReplica ((s.win w).localAddr (i * 256)) data).modBinding w fun b =>
      { b with received := if i ∈ b.received then b.received else b.received ++ [i] }
  | .deferred w r _ => s.writeReplica ((s.win w).localAddr r.offset.toNat) r.data

/-- The head frame leaves the hold (R28). -/
def State.popHold (s : State) : State := { s with rh := { slots := s.rh.slots.tail, work := none } }

/-- The frame in handling ends before its outstanding write: a waiting request is withdrawn, a grant in progress makes
its write and ends, the rest of the frame is dropped, and the update note is given for the records applied (R31, R81, R84,
R121; log 5). -/
def State.endWriting (s : State) (wk : Work) : State :=
  let s' := s.withdrawRequest .writer
  let granted := s'.granted .writer
  let t := if granted then (s'.writerEffect wk).releaseGrant else s'
  let applied := match wk with
    | .record _ _ _ _ applied _ => applied || granted
    | .page .. | .deferred .. => false
  (if applied then t.updateNote wk.window else t).popHold

/-- The write for window `w` ended so, if the head frame waits for one. -/
def State.settleWriter (s : State) (w : WinId) : State :=
  match s.rh.work with
  | none => s
  | some wk => if wk.window = w then s.endWriting wk else s

end Sys2Proof.Machine
end

