-- ==== Sys2Proof/Machine/Ownership.lean ====
section
/-!
DEFINITION. The Ownership Unit (chapter 7): claims, grants, denials, takeovers, yielding, and the completions of its
frames.
-/

namespace Sys2Proof.Machine

/-! ### Due frames (R13) -/

/-- A frame of the Ownership Unit becomes due. -/
def State.makeDue (s : State) (f : OwnerFrame) : State := { s with ownerDue := s.ownerDue ++ [f] }

/-- Due frames for which `p` holds withdrawn. -/
def State.withdrawDue (s : State) (p : OwnerFrame → Bool) : State :=
  { s with ownerDue := s.ownerDue.filter fun f => !p f }

/-- A due frame's source, as the line keeps it. -/
def OwnerFrame.source : OwnerFrame → Source
  | .grant w => .grant w
  | .deny w target => .deny w target
  | .takeover w _ _ => .takeover w
  | .claim w => .claim w

/-- Due frames and the frame on the line with a source for which `p` holds withdrawn (R13, R132, R137). -/
def State.withdrawOwnerFrames (s : State) (p : Source → Bool) : State :=
  (s.withdrawDue fun f => p f.source).withdrawOnLine p

/-- A GRANT is due for window `w` (R142) and not yet listed. -/
def State.grantBecomesDue (s : State) (w : WinId) : Bool :=
  decide ((s.win w).ownership = .granting) && !s.pq.holds w && !s.se.endOwed w && !decide (OwnerFrame.grant w ∈ s.ownerDue)

/-- The GRANTs that have become due, in window order (R13, R142). -/
def State.settleGrants (s : State) : State :=
  allWindows.foldl (fun t w => if t.grantBecomesDue w then t.makeDue (.grant w) else t) s

/-! ### Claiming (R133 to R137) -/

/-- A claim starts (R134). -/
def State.startClaim (s : State) (w : WinId) : State :=
  (s.modWin w fun x => { x with ownership := .claiming, claimAttempts := 1, claimTimer := .stopped }).makeDue (.claim w)

/-- Window `w`'s CLAIM withdrawn (R137). -/
def State.withdrawClaim (s : State) (w : WinId) : State := s.withdrawOwnerFrames fun src => decide (src = .claim w)

/-- What every exit from CLAIMING does, beside the new ownership state (R137). Nothing for a window not in CLAIMING. -/
def State.exitClaiming (s : State) (w : WinId) : State :=
  if (s.win w).ownership = .claiming then
    (s.modWin w fun x => { x with claimAttempts := 0, claimTimer := .stopped }).withdrawClaim w
  else s

/-- The window goes from CLAIMING to FOLLOWER (R137). -/
def State.endClaim (s : State) (w : WinId) : State :=
  (s.exitClaiming w).modWin w fun x => { x with ownership := .follower }

/-- A completed CLAIM, not withdrawn (R134, R135): it is no longer due, and the claim timer starts. -/
def State.claimCompleted (s : State) (w : WinId) : State :=
  let s' := s.withdrawDue fun f => decide (f = .claim w)
  if (s.win w).ownership = .claiming then
    s'.modWin w fun x => { x with claimTimer := .ofSpans s.lp.params.claimTimeout }
  else s'

/-! ### OWNER, GRANTING and yielding -/

/-- Entry to OWNER with a generation and a next sequence (R144). -/
def State.becomeOwner (s : State) (w : WinId) (generation : Byte) (nextSeq : Word) : State :=
  let s' := (s.exitClaiming w).leaveFollowed w
  s'.modWin w fun x =>
    { x with ownership := .owner, recordedOwner := s.station, generation := generation, nextSeq := nextSeq, retry := 0,
             markTimer := s.freshMarkTimer }

/-- The next sequence a takeover numbers from (R149). -/
def Window.takeoverSeq (x : Window) : Word :=
  if x.sync = .synced then x.expected.getD 0 else 0

/-- A takeover (R149). The TAKEOVER made due holds the takeover values from here on, as R150 has every attempt carry them;
R61 has its next sequence read at the assembly (DESIGN CHOICE, log 35). -/
def State.takeover (s : State) (w : WinId) : State :=
  let x := s.win w
  let g := x.generation + 1
  let q := x.takeoverSeq
  ((s.becomeOwner w g q).makeDue (.takeover w g q)).recordEvent
    { cause := .ownershipGained, window := some w, station := some x.recordedOwner, sequence := some q }

/-- Entry to GRANTING on a CLAIM (R139). -/
def State.enterGranting (s : State) (w : WinId) (claimant : Station) : State :=
  let t := (s.finishTaken w).modWin w fun x =>
    { x with ownership := .granting, grantee := some claimant, returned := false, markTimer := .stopped }
  (((t.abandonSweep w).withdrawOwnerFrames fun src =>
    match src with
    | .deny v _ => decide (v = w)
    | _ => false).refuseTaken w)

/-- Entry to GRANTING as a returner (R146). -/
def State.becomeReturner (s : State) (w : WinId) (granter : Station) (generation : Byte) (nextSeq : Word) : State :=
  ((s.exitClaiming w).leaveFollowed w).modWin w fun x =>
    { x with ownership := .granting, grantee := some granter, returned := true, generation := generation,
             nextSeq := nextSeq, recordedOwner := s.station }

/-- The source is a GRANT, DENY or TAKEOVER of window `w`. -/
def Source.isOwners (w : WinId) : Source → Bool
  | .grant v | .deny v _ | .takeover v => decide (v = w)
  | .claim _ | .update _ _ | .mark _ | .refreshReq _ | .sweepBegin _ | .sweepData _ | .sweepEnd _ | .message => false

/-- The window yields to the owner a winning frame names (R132). A taken write whose grant is in progress completes first;
one that waits is refused (R58). -/
def State.yieldTo (s : State) (w : WinId) (owner : Station) (generation : Byte) (source : Station) : State :=
  let a := (((s.finishTaken w).discardPosts w).abandonSweep w).withdrawOwnerFrames (Source.isOwners w)
  let b := (a.modWin w fun x =>
    { x with ownership := .follower, recordedOwner := owner, generation := generation, grantee := none,
             returned := false, markTimer := .stopped, markNow := false }).enterGap w
  ((b.recordEvent { cause := .ownershipConflict, window := some w, station := some source }).refuseTaken w).retestHeld

/-! ### The checks (R127, R129, R131) -/

/-- A frame dropped by an owner or generation check (R78, R114, R127, R129). -/
def State.foreign (s : State) : State := s.count .foreign

/-- A frame for an OWN window from another station (R127). -/
def State.ownConflict (s : State) (w : WinId) (source : Station) : State :=
  (s.count .conflict).recordEvent { cause := .ownershipConflict, window := some w, station := some source }

/-- The check of R129 passes the frame. -/
def Window.passes (x : Window) (generation : Byte) (named : Station) : Bool :=
  match genCompare generation x.generation with
  | .newer => true
  | .equal => decide (named.toNat ≤ x.recordedOwner.toNat)
  | .older => false

/-- A passed frame's named owner and generation adopted (R129). -/
def State.adopt (s : State) (w : WinId) (named : Station) (generation : Byte) : State :=
  s.modWin w fun x => { x with recordedOwner := named, generation := generation }

/-- A frame that names another owner wins at an owning station (R131). -/
def State.frameWins (s : State) (w : WinId) (generation : Byte) (named : Station) : Bool :=
  match genCompare generation (s.win w).generation with
  | .newer => true
  | .equal => decide (named.toNat < s.station.toNat)
  | .older => false

/-- A frame that names another owner, judged at an owning station (R131). -/
def State.judgeRival (s : State) (w : WinId) (generation : Byte) (named source : Station) : State :=
  if s.frameWins w generation named then s.yieldTo w named generation source
  else (s.count .conflict).modWin w fun x => { x with markNow := true }

/-! ### Frames of the Ownership Unit -/

/-- A CLAIM for a SHARE window (R138). -/
def State.handleClaim (s : State) (w : WinId) (source : Station) : State :=
  let x := s.win w
  if x.ownership = .owner then
    if x.keep then
      if OwnerFrame.deny w source ∈ s.ownerDue then s else s.makeDue (.deny w source)
    else s.enterGranting w source
  else s

/-- A DENY for a SHARE window (R141). -/
def State.handleDeny (s : State) (w : WinId) (source target : Station) : State :=
  let x := s.win w
  if x.ownership = .claiming ∧ target = s.station ∧ source = x.recordedOwner then
    (s.endClaim w).recordEvent { cause := .claimDenied, window := some w, station := some source }
  else s

/-- A claim that another station's gain ends (R148, R151). -/
def State.loseClaim (s : State) (w : WinId) (winner : Station) : State :=
  if (s.win w).ownership = .claiming then
    (s.endClaim w).recordEvent { cause := .claimLost, window := some w, station := some winner }
  else s

/-- A SYNCED window whose expected sequence is not the new owner's next sequence goes to GAP (R148, R151). -/
def State.checkNextSeq (s : State) (w : WinId) (source : Station) (nextSeq : Word) : State :=
  let x := s.win w
  if x.sync = .synced ∧ x.expected ≠ some nextSeq then
    (s.enterGap w).recordEvent
      { cause := .seqGap, window := some w, station := some source, sequence := x.expected }
  else s

/-- A GRANT naming this station, at a station that follows the window and whose check has passed it (R145 to R147). -/
def State.takeGrant (s : State) (w : WinId) (source : Station) (generation : Byte) (nextSeq : Word) (returned : Bool) :
    State :=
  let x := s.win w
  if x.sync = .synced ∧ x.expected = some nextSeq then
    (s.becomeOwner w generation nextSeq).recordEvent
      { cause := .ownershipGained, window := some w, station := some source, sequence := some nextSeq }
  else if returned then
    ((s.becomeOwner w generation nextSeq).recordEvent
      { cause := .forcedOwnership, window := some w, station := some source, sequence := some nextSeq }).modSe
        fun e => e.ask w .forced
  else s.becomeReturner w source generation nextSeq

/-- A GRANT naming this station for a SHARE window (R145). -/
def State.handleGrantHere (s : State) (w : WinId) (source : Station) (generation : Byte) (nextSeq : Word)
    (returned : Bool) : State :=
  let x := s.win w
  if x.owned then
    if genCompare generation x.generation = .older then s.count .conflict
    else s.modWin w fun y => { y with generation := generation }
  else if x.passes generation s.station then
    (s.adopt w s.station generation).takeGrant w source generation nextSeq returned
  else s.foreign

/-- A GRANT naming another station for a SHARE window (R148). -/
def State.handleGrantElsewhere (s : State) (w : WinId) (source grantee : Station) (generation : Byte) (nextSeq : Word) :
    State :=
  let x := s.win w
  if x.owned then s.judgeRival w generation grantee source
  else if x.passes generation grantee then
    ((s.adopt w grantee generation).loseClaim w grantee).checkNextSeq w source nextSeq
  else s.foreign

/-- A TAKEOVER for a SHARE window (R151). -/
def State.handleTakeover (s : State) (w : WinId) (source : Station) (generation : Byte) (nextSeq : Word) : State :=
  let x := s.win w
  if x.owned then s.judgeRival w generation source source
  else if x.passes generation source then
    ((s.adopt w source generation).loseClaim w source).checkNextSeq w source nextSeq
  else s.foreign

/-! ### Completions -/

/-- A completed GRANT, not withdrawn, of a window still GRANTING (R143). -/
def State.grantCompleted (s : State) (w : WinId) (generation : Byte) (nextSeq : Word) (grantee : Station)
    (returned : Bool) : State :=
  if (s.win w).ownership = .granting then
    let a := (s.withdrawDue fun f => decide (f = .grant w)).modWin w fun x =>
      { x with ownership := .follower, recordedOwner := grantee, generation := generation, grantee := none,
               returned := false, markNow := false }
    let b := if returned then a.enterGap w else a.enterSynced w nextSeq
    b.recordEvent
      { cause := .ownershipGiven, window := some w, station := some grantee, sequence := some nextSeq }
  else s

/-- A completed DENY, not withdrawn, is no longer due (R140). -/
def State.denyCompleted (s : State) (w : WinId) (target : Station) : State :=
  s.withdrawDue fun f => decide (f = .deny w target)

/-- A completed TAKEOVER, not withdrawn (R150). -/
def State.takeoverCompleted (s : State) (w : WinId) : State :=
  let s' := s.withdrawDue fun f => decide (f.source = .takeover w)
  if (s.win w).ownership = .owner then s'.modSe fun e => e.ask w .takeover else s'

/-! ### Restart (R152) -/

/-- SOFT_RESTART at one window: GRANTING becomes OWNER, a returner with FORCED_OWNERSHIP and a FORCED sweep; CLAIMING
becomes FOLLOWER. The retry count is kept (R50, R93). -/
def State.restartOwnership (s : State) (w : WinId) : State :=
  let x := s.win w
  match x.ownership with
  | .granting =>
    let a := s.modWin w fun y =>
      { y with ownership := .owner, grantee := none, returned := false, markTimer := s.freshMarkTimer }
    if x.returned then
      (a.recordEvent
        { cause := .forcedOwnership, window := some w, station := x.grantee, sequence := some x.nextSeq }).modSe
          fun e => { e with queue := e.queue ++ [(w, .forced)] }
    else a
  | .claiming => s.endClaim w
  | .owner | .follower => s

/-- The due GRANTs, DENYs and CLAIMs withdrawn; TAKEOVERs stay due (R152). -/
def OwnerFrame.dropsAtRestart : OwnerFrame → Bool
  | .takeover .. => false
  | .grant _ | .deny _ _ | .claim _ => true

/-- The Ownership Unit at SOFT_RESTART, in window order, the FORCED entries being the only ones in the sweep queue (R152,
R190). -/
def State.restartOwnerships (s : State) : State :=
  (allWindows.foldl State.restartOwnership (s.withdrawDue OwnerFrame.dropsAtRestart)).modSe SweepEngine.promote

end Sys2Proof.Machine
end

