-- ==== Sys2Proof/Machine/Refresh.lean ====
section
/-!
DEFINITION. The Refresh Contexts at work (06, 6.3 to 6.6) and the Follow Unit's judgement of records and marks (05, 5.3 to
5.6): what each does with a frame, and how an attempt ends.
-/

namespace Sys2Proof.Machine

/-! ### The end of an attempt (R122, R123) -/

/-- A failed attempt brings a takeover in place of STALE: a SHARE window whose initial owner is this station and whose
takeover is permitted (R93, R123, R149). -/
def State.takesOverAtFailure (s : State) (w : WinId) : Bool :=
  let x := s.win w
  x.isShare && decide (x.desc.owner = s.station) && x.desc.takeoverPermitted

/-- Where a window goes after a failed attempt that left its retry count as it stands (R93, R123, R149). -/
def State.afterFailure (s : State) (w : WinId) : State :=
  if (s.win w).retry < Config.retryLimit then s.enterGap w
  else if s.takesOverAtFailure w then
    (s.modWin w fun x => { x with sync := .gap, gapOrigin := some .here, wait := .stopped }).takeover w
  else
    (s.enterStale w).recordEvent
      { cause := .windowStale, window := some w, station := some (s.win w).recordedOwner }

/-- The attempt of window `w`'s bound context fails (R123). The retry count ends at 3 (log 12). -/
def State.failAttempt (s : State) (w : WinId) : State :=
  let attempt := (s.bindingOf w).bind (·.attempt)
  let owner := match attempt with
    | some a => a.owner
    | none => (s.win w).recordedOwner
  let a := (s.releaseBound w).modWin w fun x => { x with retry := min Config.retryLimit (x.retry + 1) }
  (a.recordEvent
    { cause := .refreshFailed, window := some w, station := some owner, sequence := attempt.map (·.snapshot) }).afterFailure w

/-- The refresh of window `w` completes (R122): SYNCED at the number after the last applied one, with one update note; and
on to GAP if posts were lost meanwhile or the owner has changed. -/
def State.completeRefresh (s : State) (w : WinId) : State :=
  match s.bindingOf w with
  | none => s
  | some b =>
    match b.attempt with
    | none => s
    | some a =>
      let expected := a.snapshot + 1 + BitVec.ofNat 16 b.deferred.length
      let t := (((s.enterSynced w expected).modWin w fun x => { x with retry := 0, wait := .stopped }).updateNote w).releaseBound w
      if b.overflow || b.deferredGap || decide ((s.win w).recordedOwner ≠ a.owner) then t.enterGap w else t

/-- SIZE_MISMATCH at a follower: the window goes to STALE (R80, R94, R116, R120). -/
def State.sizeMismatch (s : State) (w : WinId) (source : Station) (sequence : Option Word) : State :=
  ((s.recordEvent
    { cause := .sizeMismatch, window := some w, station := some source, sequence := sequence }).releaseBound w).enterStale w

/-! ### Records for a window in REFRESHING (R119, R120) -/

/-- The next deferred number (R120). -/
def Attempt.nextDeferred (a : Attempt) (deferred : List PostRecord) : Word :=
  a.snapshot + 1 + BitVec.ofNat 16 deferred.length

/-- A record at or before the snapshot (R119). -/
def Attempt.covers (a : Attempt) (seq : Word) : Bool := decide (seqDistance seq (a.snapshot + 1) = .behind)

/-- The data bytes of a deferred list. -/
def deferredLength (rs : List PostRecord) : Nat := (rs.map fun r => r.data.length).sum

/-- A record after the snapshot (R120). -/
def State.deferRecord (s : State) (w : WinId) (source : Station) (b : Binding) (a : Attempt) (r : PostRecord) : State :=
  if b.overflow || b.deferredGap then s
  else if (s.win w).size < r.offset.toNat + r.data.length then s.sizeMismatch w source (some r.seq)
  else if r.seq ≠ a.nextDeferred b.deferred then
    (s.modBinding w fun c => { c with deferredGap := true }).recordEvent
      { cause := .seqGap, window := some w, station := some source, sequence := some (a.nextDeferred b.deferred) }
  else if b.deferred.length = Config.deferredRecords ∨
      Config.deferredBytes < deferredLength b.deferred + r.data.length then
    (s.modBinding w fun c => { c with overflow := true }).recordEvent
      { cause := .deferredOverflow, window := some w, station := some source, sequence := some r.seq }
  else s.modBinding w fun c => { c with deferred := c.deferred ++ [r] }

/-- A record that reaches the bound context (R119, R120). -/
def State.contextRecord (s : State) (w : WinId) (source : Station) (r : PostRecord) : State :=
  match s.bindingOf w with
  | none => s
  | some b =>
    match b.attempt with
    | none => s
    | some a => if source ≠ a.owner ∨ a.covers r.seq then s else s.deferRecord w source b a r

/-! ### Records and marks for a window in SYNCED (R80 to R85) -/

/-- A break in the sequence (R82, R83, R85): SEQ_GAP with the expected sequence, and entry to GAP. -/
def State.seqBreak (s : State) (w : WinId) (source : Station) : State :=
  (s.enterGap w).recordEvent
    { cause := .seqGap, window := some w, station := some source, sequence := (s.win w).expected }

/-- A behind record or MARK (R83, R85). -/
def State.behindResult (s : State) (w : WinId) (source : Station) (seq : Word) (adopted : Bool) : State :=
  if adopted then s.seqBreak w source
  else if (s.win w).behind + 1 < Config.behindLimit then s.modWin w fun x => { x with behind := x.behind + 1 }
  else
    ((s.modWin w fun x => { x with behind := Config.behindLimit }).enterUnsynced w).recordEvent
      { cause := .restartSuspected, window := some w, station := some source, sequence := some seq }

/-- The records of an UPDATE, in frame order, each by the window's state as it then stands (R30, R76, R80 to R84). A record
in order places the writer's request and the rest waits behind it; at the end of the frame the update note is given if a
record was applied. -/
def State.takeRecords (s : State) (w : WinId) (source : Station) (applied adopted : Bool) : List PostRecord → State
  | [] => if applied then s.updateNote w else s
  | r :: rest =>
    if !(s.win w).followed then s.takeRecords w source applied adopted rest
    else
      match (s.win w).sync, (s.win w).expected with
      | .synced, some e =>
        match seqDistance r.seq e with
        | .inOrder =>
          if (s.win w).size < r.offset.toNat + r.data.length then
            (s.sizeMismatch w source (some r.seq)).takeRecords w source applied adopted rest
          else (s.setWork (some (.record w source r rest applied adopted))).requestGrant .writer
        | .ahead => (s.seqBreak w source).takeRecords w source applied adopted rest
        | .behind => (s.behindResult w source r.seq adopted).takeRecords w source applied adopted rest
      | .refreshing, _ => (s.contextRecord w source r).takeRecords w source applied adopted rest
      | _, _ => s.takeRecords w source applied adopted rest

/-- A MARK at the Follow Unit (R85). -/
def State.takeMark (s : State) (w : WinId) (source : Station) (lastSeq : Word) (adopted : Bool) : State :=
  if !(s.win w).followed then s
  else
    match (s.win w).sync, (s.win w).expected with
    | .synced, some e =>
      match seqDistance lastSeq (e - 1) with
      | .inOrder => s
      | .ahead => s.seqBreak w source
      | .behind => s.behindResult w source lastSeq adopted
    | _, _ => s

/-! ### Suppression and joining (R91, R115) -/

/-- Another station's REFRESH_REQ at the Follow Unit (R91, R92, R97). -/
def State.suppress (s : State) (w : WinId) (pageCount : Byte) : State :=
  let x := s.win w
  if pageCount ≠ x.desc.pageCount ∨ !x.followed ∨ !s.li.onlineSeen ∨ s.requestOnLine w then s
  else
    match x.sync with
    | .gap | .unsynced => (s.bindAlready w).getD s
    | .synced | .refreshing | .stale => s

/-- A REFRESH_REQ at the Sweep Engine (R101). -/
def State.answerRequest (s : State) (w : WinId) (source : Station) (pageCount : Byte) : State :=
  let x := s.win w
  if x.ownership = .owner then
    if pageCount ≠ x.desc.pageCount then
      s.recordEvent { cause := .sizeMismatch, window := some w, station := some source }
    else s.modSe fun e => e.request w
  else s

/-- A SWEEP_BEGIN taken by the context bound to the window (R116). -/
def State.takeBegin (s : State) (w : WinId) (source : Station) (sweepId : Byte) (snapshot : Word) (pageCount : Byte) :
    State :=
  match s.bindingOf w with
  | none => s
  | some b =>
    if pageCount.toNat ≠ b.pageCount then s.sizeMismatch w source none
    else
      (s.modBinding w fun c =>
        { c with attempt := some { owner := source, sweepId := sweepId, snapshot := snapshot }, received := [],
                 deferred := [], overflow := false, deferredGap := false }).modWin w
        fun x => { x with wait := s.refreshTimer }

/-- A SWEEP_BEGIN joined by a window that is not REFRESHING (R97, R115). -/
def State.joinSweep (s : State) (w : WinId) (source : Station) (sweepId : Byte) (snapshot : Word) (pageCount : Byte) :
    State :=
  if !s.li.onlineSeen then s
  else
    match s.bindAlready w with
    | some t => t.takeBegin w source sweepId snapshot pageCount
    | none =>
      if (s.win w).sync = .synced then
        (s.enterUnsynced w).recordEvent
          { cause := .restartSuspected, window := some w, station := some source, sequence := some snapshot }
      else s

/-- A SWEEP_BEGIN from the recorded owner of a followed window (R114 to R116). -/
def State.followBegin (s : State) (w : WinId) (source : Station) (sweepId : Byte) (snapshot : Word) (pageCount : Byte)
    (origin : Origin) : State :=
  match (s.win w).sync with
  | .unsynced | .gap | .stale => s.joinSweep w source sweepId snapshot pageCount
  | .synced => if origin = .start then s.joinSweep w source sweepId snapshot pageCount else s
  | .refreshing => s.takeBegin w source sweepId snapshot pageCount

/-- A frame with this source and sweep id matches the attempt (R117, R121). -/
def Attempt.isFrom (a : Attempt) (source : Station) (sweepId : Byte) : Bool :=
  decide (a.owner = source) && decide (a.sweepId = sweepId)

/-- A SWEEP_DATA at the bound context: a matching page inside the window restarts the refresh timeout and asks for its
write (R117). -/
def State.takePage (s : State) (w : WinId) (source : Station) (sweepId pageIndex : Byte) (data : List Byte) : State :=
  match s.bindingOf w with
  | none => s
  | some b =>
    if b.attempt.any (fun a => a.isFrom source sweepId) ∧ pageIndex.toNat < b.pageCount then
      ((s.modWin w fun x => { x with wait := s.refreshTimer }).setWork (some (.page w pageIndex.toNat data))).requestGrant
        .writer
    else s

/-- Every page of the window has been received (R121). -/
def Binding.whole (b : Binding) : Bool := (List.range b.pageCount).all fun i => decide (i ∈ b.received)

/-- The next deferred record asks for its write; after the last the refresh completes (R121, R122). -/
def State.applyDeferred (s : State) (w : WinId) : List PostRecord → State
  | [] => s.completeRefresh w
  | r :: rest => (s.setWork (some (.deferred w r rest))).requestGrant .writer

/-- A SWEEP_END at the bound context (R121). -/
def State.takeEnd (s : State) (w : WinId) (source : Station) (sweepId : Byte) (abandoned : Bool) : State :=
  match s.bindingOf w with
  | none => s
  | some b =>
    if b.attempt.any fun a => a.isFrom source sweepId then
      let t := s.modWin w fun x => { x with wait := .stopped }
      if abandoned || !b.whole then t.failAttempt w else t.applyDeferred w b.deferred
    else s

end Sys2Proof.Machine
end

