-- ==== Sys2Proof/Machine/Messages.lean ====
section
/-!
DEFINITION. The Message Unit (chapter 8): the staging area's copy, the out queue, the filters and the in FIFO.
-/

namespace Sys2Proof.Machine

/-- The Message Unit changed by `f`. -/
def State.modMu (s : State) (f : MessageUnit → MessageUnit) : State := { s with mu := f s.mu }

/-- The staging area's fields are legal for a message of this station (R155). -/
def Staging.legal (m : Staging) (station : Station) : Bool :=
  decide (1 ≤ m.destination.toNat) && decide (m.destination.toNat ≤ 31) && decide (m.destination ≠ station) &&
    decide (1 ≤ m.urgency.toNat) && decide (m.urgency.toNat ≤ 3) && decide (m.length.toNat ≤ Config.payloadBytes)

/-- The message the staging area holds (R155). -/
def Staging.message (m : Staging) : OutMessage :=
  { destination := m.destination, urgency := m.urgency, kind := m.kind, subkind := m.subkind,
    payload := m.payload.toList.take m.length.toNat }

/-- The message domain: the lowest-numbered domain of the domain set (R156). -/
def messageDomain (domainSet : Word) : BitVec 4 :=
  BitVec.ofNat 4 (((List.range 16).find? fun d => domainSet.getLsbD d).getD 0)

/-- A MESSAGE frame from the out queue's head (R156). -/
def OutMessage.frame (m : OutMessage) (station : Station) (domainSet : Word) : Frame :=
  { urgency := m.urgency.setWidth 2, source := station, domain := messageDomain domainSet,
    body := .message m.destination m.urgency m.kind m.subkind m.payload }

/-- A filter matches a message (R158). -/
def MessageFilter.matchesKind (f : MessageFilter) (kind subkind : Byte) : Bool :=
  f.enable && decide (f.kind = kind) && (decide (f.subkind = 255) || decide (f.subkind = subkind))

/-- The message is accepted: direct, or matched by a filter (R159). -/
def State.accepts (s : State) (destination kind subkind : Byte) : Bool :=
  decide (destination = s.station) ||
    (decide (destination = 31) && s.mu.filters.toList.any fun f => f.matchesKind kind subkind)

/-- An accepted message to the in FIFO, or lost at a full one (R160). -/
def State.acceptMessage (s : State) (m : InMessage) : State :=
  if s.mu.inFifo.length < Config.inFifoSize then
    let t := s.modMu fun u => { u with inFifo := u.inFifo ++ [m] }
    if s.mu.inFifo = [] then t.occurrence s.lp.params.messageVector else t
  else (s.count .msgDrops).recordEvent { cause := .messageOverflow, station := some m.source }

/-- A MESSAGE handed to the Message Unit (R159, R160). -/
def State.handleMessage (s : State) (source : Station) (destination urgency kind subkind : Byte) (payload : List Byte) :
    State :=
  if s.accepts destination kind subkind then
    s.acceptMessage { source := source, destination := destination, urgency := urgency, kind := kind, subkind := subkind,
                      payload := payload }
  else s

/-- A completed MESSAGE: the head leaves the out queue (R157). -/
def State.messageCompleted (s : State) : State := s.modMu fun u => { u with outQueue := u.outQueue.tail }

end Sys2Proof.Machine
end

