-- ==== Sys2Proof/Machine/Handling.lean ====
section
/-!
DEFINITION. The Receive Hold: entry of a frame, its handling by the owning blocks, and the grants of the internal writer
(R26 to R31, R78, R79, R127, R130).
-/

namespace Sys2Proof.Machine

/-! ### Owner checks of UPDATE and MARK (R78, R79, R127, R129 to R131) -/

/-- The claim timer restarted by the recorded owner's UPDATE (R130, R135). -/
def State.restartClaim (s : State) (w : WinId) (source : Station) : State :=
  let x := s.win w
  if x.ownership = .claiming ∧ x.claimTimer.isRunning ∧ source = x.recordedOwner then
    s.modWin w fun y => { y with claimTimer := .ofSpans s.lp.params.claimTimeout }
  else s

/-- An UPDATE or MARK through its owner checks; `k` is the Follow Unit's handling, given the adopted-generation fact. An
UPDATE restarts a running claim timer (R78, R127, R129 to R131). -/
def State.ownerChecked (s : State) (w : WinId) (source : Station) (generation : Byte) (isUpdate : Bool)
    (k : State → Bool → State) : State :=
  let x := s.win w
  match x.role with
  | some .follow => if source = x.desc.owner then k s false else s.foreign
  | some .share =>
    if x.owned then s.judgeRival w generation source source
    else if x.passes generation source then
      let t := s.adopt w source generation
      k (if isUpdate then t.restartClaim w source else t) (decide (genCompare generation x.generation = .newer))
    else s.foreign
  | some .own | none => s.ownConflict w source

/-- A frame of the Ownership Unit by the window's role: OWN windows count a conflict, FOLLOW windows a foreign frame
(R127). -/
def State.shareOnly (s : State) (w : WinId) (source : Station) (k : State → State) : State :=
  match (s.win w).role with
  | some .share => k s
  | some .follow => s.foreign
  | some .own | none => s.ownConflict w source

/-- A sweep frame by the follower's checks (R114). -/
def State.sweepChecked (s : State) (w : WinId) (source : Station) (k : State → State) : State :=
  if (s.win w).followed then
    if source = (s.win w).recordedOwner then k s else s.foreign
  else s

/-! ### Handling (R28, R29) -/

/-- The head frame handed to the blocks that own its state, for the window its lookup found (R29). -/
def State.handleFor (s : State) (w : WinId) (source : Station) (body : Body) : State :=
  match body with
  | .update _ g rs => s.ownerChecked w source g true fun t adopted => t.takeRecords w source false adopted rs
  | .mark _ g last => s.ownerChecked w source g false fun t adopted => t.takeMark w source last adopted
  | .refreshReq _ n => (s.answerRequest w source n).suppress w n
  | .sweepBegin _ _ i sn n o => s.sweepChecked w source fun t => t.followBegin w source i sn n o
  | .sweepData _ i p d =>
    s.sweepChecked w source fun t => if (t.win w).sync = .refreshing then t.takePage w source i p d else t
  | .sweepEnd _ i _ a =>
    s.sweepChecked w source fun t => if (t.win w).sync = .refreshing then t.takeEnd w source i a else t
  | .claim _ => s.shareOnly w source fun t => t.handleClaim w source
  | .grant _ g q grantee r =>
    s.shareOnly w source fun t =>
      if grantee = t.station then t.handleGrantHere w source g q r else t.handleGrantElsewhere w source grantee g q
  | .deny _ target => s.shareOnly w source fun t => t.handleDeny w source target
  | .takeover _ g q => s.shareOnly w source fun t => t.handleTakeover w source g q
  | .message .. => s

/-- A frame's handling from its start, up to its first write or its end (R28): a MESSAGE goes to the Message Unit without
lookup; any other frame to the window the exact lookup finds, if there is one. GRANTs that it makes due are listed. -/
def State.handleFrame (s : State) (f : Frame) : State :=
  match f.body with
  | .message d u k sk p => s.handleMessage f.source d u k sk p
  | .update b .. | .mark b .. | .refreshReq b .. | .sweepBegin b .. | .sweepData b .. | .sweepEnd b .. | .claim b
  | .grant b .. | .deny b .. | .takeover b .. =>
    match s.maps.exact f.domain b with
    | none => s
    | some w => (s.handleFor w f.source f.body).settleGrants

/-- The frames of the hold handled in turn until one waits for a write; a frame whose handling has ended leaves (R28). The
first argument is the number of frames that can still end. -/
def State.runHold : Nat → State → State
  | 0, s => s
  | n + 1, s =>
    match s.rh.work, s.rh.slots with
    | none, f :: _ =>
      let t := s.handleFrame f
      match t.rh.work with
      | none => t.popHold.runHold n
      | some _ => t
    | _, _ => s

/-- The hold run on after an event. -/
def State.resumeHold (s : State) : State := s.runHold s.rh.slots.length

/-! ### Entry to the hold (R26, R27) -/

/-- A good, filtered frame joins the hold; at a full hold it takes the newest slot, whose frame is lost (R26, R27). -/
def State.holdFrame (s : State) (f : Frame) : State :=
  if s.rh.slots.length < Config.holdSlots then { s with rh := { s.rh with slots := s.rh.slots ++ [f] } }.resumeHold
  else
    let t := { s with rh := { s.rh with slots := s.rh.slots.dropLast ++ [f] } }.count .overruns
    t.recordEvent { cause := .holdOverrun, station := s.rh.slots.getLast?.map (·.source) }

/-- The filter (R10). -/
def State.filterFrame (s : State) (f : Frame) : State :=
  if f.source = s.station then s.recordEvent { cause := .duplicateStation, station := some s.station }
  else if !s.lp.params.domainSet.getLsbD f.domain.toNat then s
  else
    match f.body with
    | .message d .. => if d = s.station ∨ d = 31 then s.holdFrame f else s
    | _ => s.holdFrame f

/-! ### The internal writer's grants -/

/-- The frame in handling has ended: it leaves the hold, and the next is handled (R28). -/
def State.finishFrame (s : State) : State := s.popHold.settleGrants.resumeHold

/-- What follows an ended write: the next write waits, or the frame has ended (R28, R30). `s` has no write waiting but the
one its continuation has placed. The grant has been released before this: a write that the same frame places next stood among
the waiting requests then, and the first write of the next frame did not (DESIGN CHOICE, log 33). -/
def State.continueFrame (s : State) : State :=
  match s.rh.work with
  | none => s.finishFrame
  | some _ => s

/-- RECORD_WRITE_GRANT (R80). The next record's request is placed before the grant is released, the next frame's first one
after (R28, R34; DESIGN CHOICE, log 33). -/
def execRecordWriteGrant (s : State) : Host.Outcome State Fault Refusal :=
  .next <|
    match s.rh.work with
    | some (.record w src r rest applied adopted) =>
      if s.granted .writer then
        let t := (s.writerEffect (.record w src r rest applied adopted)).setWork none
        (t.takeRecords w src true adopted rest).releaseGrant.continueFrame
      else s
    | some (.page ..) | some (.deferred ..) | none => s

/-- PAGE_WRITE_GRANT (R117). The next frame's first request is placed after the grant is released (R28, R34; DESIGN
CHOICE, log 33). -/
def execPageWriteGrant (s : State) : Host.Outcome State Fault Refusal :=
  .next <|
    match s.rh.work with
    | some (.page w i data) =>
      if s.granted .writer then
        ((s.writerEffect (.page w i data)).setWork none).releaseGrant.continueFrame
      else s
    | some (.record ..) | some (.deferred ..) | none => s

/-- DEFERRED_RECORD_GRANT (R121, R122). The next record's request is placed before the grant is released, the next
frame's first one after (R28, R34; DESIGN CHOICE, log 33). -/
def execDeferredRecordGrant (s : State) : Host.Outcome State Fault Refusal :=
  .next <|
    match s.rh.work with
    | some (.deferred w r rest) =>
      if s.granted .writer then
        let t := (s.writerEffect (.deferred w r rest)).setWork none
        (t.applyDeferred w rest).releaseGrant.continueFrame
      else s
    | some (.record ..) | some (.page ..) | none => s

end Sys2Proof.Machine
end

