-- ==== Sys2Proof/Machine/Transmit.lean ====
section
/-!
DEFINITION. Transmission (01, 1.3 and 1.4): the scheduler's choice and assembly, the start of a frame, arbitration, transmit
faults, completion and the page read of a SWEEP_DATA.
-/

namespace Sys2Proof.Machine

/-! ### Assembly (R13) -/

/-- The header and body of a frame for window `w`. -/
def State.frameFor (s : State) (w : WinId) (urgency : BitVec 2) (body : Body) : Frame :=
  { urgency := urgency, source := s.station, domain := (s.win w).lineDomain, body := body }

/-- A frame as it begins: nothing driven yet. -/
def OnLine.fresh (source : Source) (frame : Frame) (pagePending : Bool) : OnLine :=
  { source := source, frame := frame, withdrawn := false, pagePending := pagePending, sent := 0 }

/-- A frame of the Ownership Unit (R134, R140, R142, R150). A TAKEOVER carries the values fixed at its takeover (R150), not
the window's next sequence as it stands at the assembly (R61; DESIGN CHOICE, log 35). -/
def State.assembleOwner (s : State) (f : OwnerFrame) : OnLine :=
  match f with
  | .grant w =>
    let x := s.win w
    .fresh f.source (s.frameFor w 0
      (.grant x.desc.lineBase (x.generation + 1) x.nextSeq (x.grantee.getD 0) x.returned)) false
  | .deny w target => .fresh f.source (s.frameFor w 0 (.deny (s.win w).desc.lineBase target)) false
  | .takeover w g q => .fresh f.source (s.frameFor w 0 (.takeover (s.win w).desc.lineBase g q)) false
  | .claim w => .fresh f.source (s.frameFor w 0 (.claim (s.win w).desc.lineBase)) false

/-- An UPDATE from the head of the post queue (R66). -/
def State.assembleUpdate (s : State) (w : WinId) : OnLine :=
  let taken := s.pq.entries.take s.pq.taken
  let x := s.win w
  .fresh (.update w (taken.map (·.seq)))
    (s.frameFor w 1 (.update x.desc.lineBase x.generation (taken.map PostEntry.toRecord))) false

/-- A MARK (R71). -/
def State.assembleMark (s : State) (w : WinId) : OnLine :=
  let x := s.win w
  .fresh (.mark w) (s.frameFor w 1 (.mark x.desc.lineBase x.generation (x.nextSeq - 1))) false

/-- A REFRESH_REQ (R88). -/
def State.assembleRequest (s : State) (w : WinId) : OnLine :=
  let x := s.win w
  .fresh (.refreshReq w) (s.frameFor w 2 (.refreshReq x.desc.lineBase x.desc.pageCount)) false

/-- The frame the current sweep's phase calls for (R105 to R108). The page of a SWEEP_DATA is read later (R37). -/
def State.assembleSweep (s : State) (c : Sweep) : OnLine :=
  let w := c.window
  let x := s.win w
  let id := c.sweepId.getD 0
  match c.phase with
  | .beginDue =>
    .fresh (.sweepBegin w) (s.frameFor w 2
      (.sweepBegin x.desc.lineBase x.generation s.se.idCounter (x.nextSeq - 1) x.desc.pageCount c.origin)) false
  | .data => .fresh (.sweepData w) (s.frameFor w 2 (.sweepData x.desc.lineBase id (BitVec.ofNat 8 c.nextPage) [])) true
  | .endDue =>
    .fresh (.sweepEnd w) (s.frameFor w 2 (.sweepEnd x.desc.lineBase id (BitVec.ofNat 8 c.nextPage) c.abandon)) false

/-- The head of the post queue's window. -/
def PostQueue.headWindow (q : PostQueue) : Option WinId := q.entries.head?.map (·.window)

/-- The frame of the first source class that has one due, if any (R13). -/
def State.nextFrame (s : State) : Option OnLine :=
  match s.ownerDue with
  | f :: _ => some (s.assembleOwner f)
  | [] =>
    match (if s.pq.updateDue then s.pq.headWindow else none) with
    | some w => some (s.assembleUpdate w)
    | none =>
      match allWindows.find? s.markDue with
      | some w => some (s.assembleMark w)
      | none =>
        match allWindows.find? fun w => (s.reservedCtx w).isSome with
        | some w => some (s.assembleRequest w)
        | none =>
          match (if s.sweepDue then s.se.current else none) with
          | some c => some (s.assembleSweep c)
          | none =>
            s.mu.outQueue.head?.map fun m => .fresh .message (m.frame s.station s.lp.params.domainSet) false

/-- What assembly does at its source: an UPDATE's entries are sealed (R66), and a SWEEP_DATA asks for its page, in the bt
whose first bit the frame drives, which is the next; what comes behind it before that bit is of the same bt
(State.presentBt; R12, R37; log 6). -/
def State.assembled (s : State) (f : OnLine) : State :=
  match f.source with
  | .update _ _ => { s with pq := s.pq.seal s.pq.taken }
  | .sweepData _ => s.requestIn .sweepReader (s.li.btCount + 1)
  | .grant _ | .deny _ _ | .takeover _ | .claim _ | .mark _ | .refreshReq _ | .sweepBegin _ | .sweepEnd _ | .message => s

/-- The transmitter in a new state. -/
def State.setTx (s : State) (tx : Transmitter) : State := s.modLi fun li => { li with tx := tx }

/-- The station may begin a frame: ONLINE, IDLE, the line idle and the yield condition met (R12, R17). -/
def State.mayBegin (s : State) : Bool :=
  decide (s.li.line = .online) && decide (s.li.tx = .idle) && decide (Config.idleThreshold ≤ s.li.recessiveRun) &&
    !s.li.yield

/-- TRANSMIT_START (R12, R13). -/
def execTransmitStart (s : State) : Host.Outcome State Fault Refusal :=
  .next <|
    if s.mayBegin then
      match s.nextFrame with
      | none => s
      | some f => (s.assembled f).setTx (.arbitrate f)
    else s

/-! ### The page of a SWEEP_DATA (R37) -/

/-- The page index a SWEEP_DATA carries. -/
def Body.pageIndex : Body → Nat
  | .sweepData _ _ p _ => p.toNat
  | _ => 0

/-- A SWEEP_DATA with its page. -/
def Body.withPage (data : List Byte) : Body → Body
  | .sweepData b i p _ => .sweepData b i p data
  | b => b

/-- The frame with the page its grant finds (R37). -/
def OnLine.withPage (f : OnLine) (data : List Byte) : OnLine :=
  { f with frame := { f.frame with body := f.frame.body.withPage data }, pagePending := false }

/-- The page of the local page map that a pending SWEEP_DATA of window `w` carries. -/
def State.pageOf (s : State) (w : WinId) (f : OnLine) : List Byte :=
  Memory.page s.rm.mem ((s.win w).desc.localBase.toNat + f.frame.body.pageIndex)

/-- The frame on the line with its page read, if it waits for one. -/
def State.readPage (s : State) (f : OnLine) : OnLine :=
  match f.source with
  | .sweepData w => if f.pagePending then f.withPage (s.pageOf w f) else f
  | .grant _ | .deny _ _ | .takeover _ | .claim _ | .update _ _ | .mark _ | .refreshReq _ | .sweepBegin _ | .sweepEnd _
  | .message => f

/-- SWEEP_PAGE_READ_GRANT (R37). -/
def execSweepPageReadGrant (s : State) : Host.Outcome State Fault Refusal :=
  .next <|
    if s.granted .sweepReader then (s.setTx (s.li.tx.mapOnLine s.readPage)).releaseGrant else s

/-! ### Arbitration (R14) -/

/-- ARBITRATION_WON (R14). -/
def execArbitrationWon (s : State) : Host.Outcome State Fault Refusal :=
  .next <|
    match s.li.tx with
    | .arbitrate f => s.setTx (.send f)
    | .idle | .send _ => s

/-- The part releases the line without a completion: IDLE, the page read dropped, the frame still due at its source, an
abandoned SWEEP_BEGIN's sweep cleared (R14, R15, R37, R110). -/
def State.releaseLine (s : State) (f : OnLine) : State :=
  (((s.setTx .idle).dropPageRead).sweepFrameLost f.source).settleGrants

/-- The receiver goes on in FRAME with another station's frame (R14). -/
def Receiver.inFrame : Receiver → Receiver
  | .frame bits => .frame bits
  | .hunt _ => .frame []

/-- ARBITRATION_LOST (R14): a dominant level was read in this bt (log 19). -/
def execArbitrationLost (s : State) : Host.Outcome State Fault Refusal :=
  .next <|
    match s.li.tx with
    | .arbitrate f =>
      ((s.releaseLine f).count .arbLosses).modLi fun li =>
        { li with rx := li.rx.inFrame, recessiveRun := 0, dominantRun := max 1 li.dominantRun }
    | .idle | .send _ => s

/-! ### Transmit faults (R15, R21) -/

/-- Entry to FAULTED (R21). -/
def State.enterFaulted (s : State) : State :=
  (s.modLi fun li =>
    { li with line := .faulted,
              recoveryTimer := if li.recoveredOnce then .stopped else .running Config.recoveryBits }).recordEvent
    { cause := .lineFaulted }

/-- TRANSMIT_FAULT (R15, R21). -/
def execTransmitFault (s : State) : Host.Outcome State Fault Refusal :=
  .next <|
    match s.li.tx.onLine with
    | none => s
    | some f =>
      let t := ((s.releaseLine f).count .txFaults).modLi fun li =>
        { li with rx := .hunt none, faults := min Config.faultLimit (li.faults + 1) }
      if t.li.faults = Config.faultLimit then t.enterFaulted else t

/-! ### Completion (R16) -/

/-- A completed frame told to its source. A frame its source has withdrawn meanwhile does nothing there (R89, R132, R134,
R143, R150). -/
def State.tellSource (s : State) (f : OnLine) : State :=
  match f.source, f.frame.body with
  | .grant w, .grant _ g q t r => if f.withdrawn then s else s.grantCompleted w g q t r
  | .deny w target, _ => if f.withdrawn then s else s.denyCompleted w target
  | .takeover w, _ => if f.withdrawn then s else s.takeoverCompleted w
  | .claim w, _ => if f.withdrawn then s else s.claimCompleted w
  | .update w seqs, _ => s.updateCompleted w seqs
  | .mark w, _ => s.markCompleted w
  | .refreshReq w, _ => if f.withdrawn then s else s.refreshReqCompleted w
  | .sweepBegin w, .sweepBegin _ _ i sn _ _ => s.modSe fun e => e.beginCompleted w i sn
  | .sweepData w, _ => s.modSe fun e => e.dataCompleted w (s.win w).pages
  | .sweepEnd w, _ => s.sweepEndCompleted w
  | .message, _ => s.messageCompleted
  | .grant _, _ | .sweepBegin _, _ => s

/-- FRAME_COMPLETED (R16, R17). -/
def execFrameCompleted (s : State) : Host.Outcome State Fault Refusal :=
  .next <|
    match s.li.tx with
    | .send f =>
      let t := (s.modLi fun li =>
        { li with tx := .idle, faults := 0, recoveredOnce := false, yield := true, rx := .hunt none, recessiveRun := 0,
                  dominantRun := 1 }).dropPageRead
      (t.tellSource f).settleGrants
    | .idle | .arbitrate _ => s

end Sys2Proof.Machine
end

