-- ==== Sys2Proof/Machine/LineEvents.lean ====
section
/-!
DEFINITION. The receiver's events and the run counts of the line (R2, R5 to R7, R11, R17). A row of the line leaves the run
counts at what its pattern leaves them at (log 19).
-/

namespace Sys2Proof.Machine

/-- The line states in which the receiver and the counters of the line run (R5, R18). -/
def LineState.receives : LineState → Bool
  | .listen | .online | .halted | .faulted => true
  | .offline | .configFailed => false

/-- The receiver is in FRAME. -/
def Receiver.collecting : Receiver → Bool
  | .frame _ => true
  | .hunt _ => false

/-- The run counts set. -/
def LineInterface.setRuns (li : LineInterface) (recessive dominant : Nat) : LineInterface :=
  { li with recessiveRun := recessive, dominantRun := dominant }

/-- The receiver back in HUNT. -/
def LineInterface.toHunt (li : LineInterface) : LineInterface := { li with rx := .hunt none }

/-- The part drives a frame of its own, so the receiver's outcome is neither counted nor delivered (R7). -/
def State.drives (s : State) : Bool := s.li.tx.onLine.isSome

/-- A frame's end at the receiver is possible: the receiver runs and collects a frame. -/
def State.frameOpen (s : State) : Bool := s.li.line.receives && s.li.rx.collecting

/-- OPENING_DELIMITER (R5, R17). -/
def execOpeningDelimiter (s : State) : Host.Outcome State Fault Refusal :=
  .next <|
    if s.li.line.receives && !s.li.rx.collecting then
      s.modLi fun li => { li.setRuns 0 1 with rx := .frame [], yield := li.yield && s.drives }
    else s

/-- STUFF_VIOLATION (R6). -/
def execStuffViolation (cause : StuffCause) (s : State) : Host.Outcome State Fault Refusal :=
  .next <|
    if s.frameOpen then
      let t := s.modLi fun li =>
        match cause with
        | .sevenDominant => (li.setRuns 0 (max 7 li.dominantRun)).toHunt
        | .missingAtClosing => (li.setRuns 0 1).toHunt
      if s.drives then t else t.count .stuffErrors
    else s

/-- ABORT (R6). -/
def execAbort (s : State) : Host.Outcome State Fault Refusal :=
  .next <|
    if s.frameOpen then
      let t := s.modLi fun li => (li.setRuns (max 8 li.recessiveRun) 0).toHunt
      if s.drives then t else t.count .aborts
    else s

/-- The outcome of a frame of another station at its closing delimiter (R6, R7, R10). -/
def State.closeFrame (s : State) (stuffed : List Bit) : State :=
  match destuff stuffed with
  | none => s.count .stuffErrors
  | some bits =>
    match judgeContent bits with
    | .malformed => s.count .malformed
    | .crcError => s.count .crcErrors
    | .unknownKind => s.count .unknownKind
    | .good f => s.filterFrame f

/-- FRAME_RECEIVED (R7). -/
def execFrameReceived (stuffed : List Bit) (s : State) : Host.Outcome State Fault Refusal :=
  .next <|
    if s.frameOpen && stuffedContentOk stuffed then
      let t := s.modLi fun li => (li.setRuns 0 1).toHunt
      if s.drives then t else t.closeFrame stuffed
    else s

/-- LINE_STUCK (R11). -/
def execLineStuck (s : State) : Host.Outcome State Fault Refusal :=
  .next <|
    if s.li.line.receives then
      let t := s.modLi fun li => { li.setRuns 0 Config.stuckRun with stuck := true }
      if s.li.stuck then t else t.recordEvent { cause := .lineStuck }
    else s

/-- LINE_IDLE (R2, R11). -/
def execLineIdle (s : State) : Host.Outcome State Fault Refusal :=
  .next <|
    if s.li.line.receives then
      s.modLi fun li => { li.setRuns (max Config.idleThreshold li.recessiveRun) 0 with stuck := false }
    else s

/-- YIELD_INTERVAL_EXPIRY (R2, R17). -/
def execYieldIntervalExpiry (s : State) : Host.Outcome State Fault Refusal :=
  .next <|
    if s.li.line.receives then
      s.modLi fun li => { li.setRuns Config.yieldInterval 0 with stuck := false, yield := false }
    else s

end Sys2Proof.Machine
end

