-- ==== Sys2Proof/Machine/LocalPort.lean ====
section
/-!
DEFINITION. Local cycles on the replica (R33, R36, R56 to R65, R178).
-/

namespace Sys2Proof.Machine

/-- The port takes a cycle: out of reset, with none in progress (R178, R183). -/
def State.portFree (s : State) : Bool := !s.lp.inReset && s.lp.cycle.isNone

/-- A cycle begun, its access at a stage (R178). -/
def State.beginCycle (s : State) (write : Bool) (a : BitVec 16) (be : BitVec 2) (data : Word) (stage : Stage) : State :=
  s.modLp fun lp => { lp with cycle := some { write := write, a := a, be := be, data := data, stage := stage } }

/-- A read's data driven on D[15:0]. -/
def State.drive (s : State) (d : DataOut) : State := s.modLp fun lp => { lp with dataOut := d }

/-- WAIT as a replica access begins: asserted unless its grant has begun (R36). -/
def State.waitForGrant (s : State) : State := s.setWait (!s.granted .localPort)

/-- The replica word at a word address (R194). -/
def State.replicaWord (s : State) (a : BitVec 16) : Word :=
  wordOf (Memory.read s.rm.mem (evenAddr a)) (Memory.read s.rm.mem (evenAddr a + 1))

/-- A read of the replica begins: it asks the arbiter, and a read of neither byte returns 0 at once (R33, R36, R178). -/
def State.beginReplicaRead (s : State) (a : BitVec 16) (be : BitVec 2) : State :=
  if be = 0 then (s.beginCycle false a be 0 .complete).drive (driveWord be 0)
  else ((s.beginCycle false a be 0 .read).requestGrant .localPort).waitForGrant

/-- LOCAL_READ_GRANT (R33, R36). -/
def execLocalReadGrant (s : State) : Host.Outcome State Fault Refusal :=
  .next <|
    match s.lp.cycle with
    | none => s
    | some c =>
      if c.stage = .read ∧ s.granted .localPort then
        (((s.setStage c .complete).drive (driveWord c.be (s.replicaWord c.a))).setWait false).releaseGrant
      else s

/-- LOCAL_WRITE_PRIVATE (R33). -/
def execLocalWritePrivate (a : BitVec 16) (be : BitVec 2) (data : Word) (s : State) : Host.Outcome State Fault Refusal :=
  .next <|
    if s.portFree && inReplica a && (s.maps.ofLocalPage (accessPage a)).isNone then
      if be = 0 then s.beginCycle true a be data .complete
      else ((s.beginCycle true a be data .privateWrite).requestGrant .localPort).waitForGrant
    else s

/-- A refused write starts a claim (R57). -/
def Window.handsOff (x : Window) : Bool :=
  x.isShare && decide (x.ownership = .follower) && x.desc.autoClaim && decide (x.sync = .synced)

/-- A write refused at the start of its cycle (R57). -/
def State.refuseWrite (s : State) (w : WinId) (a : BitVec 16) (be : BitVec 2) (data : Word) : State :=
  let t := (s.beginCycle true a be data .complete).recordRefusal w (accessAddr a be)
  if (s.win w).handsOff then t.startClaim w else t

/-- A write taken at the start of its cycle: allowed, held for post space, or with wait limit 0 an overflow write at once
(R62, R63). -/
def State.takeWrite (s : State) (w : WinId) (c : LocalCycle) : State :=
  if s.writeFits w c then (s.allowWrite w c).waitForGrant
  else if s.lp.params.waitLimit = 0 then ((s.setStage c (.overflowWrite w)).requestGrant .localPort).waitForGrant
  else (s.setStage c (.heldWrite w 0)).setWait true

/-- LOCAL_WRITE_WINDOW (R56). Only a window in OWNER takes a write. -/
def execLocalWriteWindow (a : BitVec 16) (be : BitVec 2) (data : Word) (s : State) : Host.Outcome State Fault Refusal :=
  .next <|
    match s.maps.ofLocalPage (accessPage a) with
    | none => s
    | some w =>
      if s.portFree && inReplica a then
        if be = 0 then s.beginCycle true a be data .complete
        else if (s.win w).ownership = .owner then
          s.takeWrite w { write := true, a := a, be := be, data := data, stage := .complete }
        else s.refuseWrite w a be data
      else s

/-- The stage is a private or an allowed write's (R60). -/
def Stage.isPlacedWrite : Stage → Bool
  | .privateWrite | .allowedWrite _ => true
  | .complete | .read | .heldWrite _ _ | .overflowWrite _ => false

/-- The stage is an overflow write's (R63). -/
def Stage.isOverflow : Stage → Bool
  | .overflowWrite _ => true
  | .complete | .read | .heldWrite _ _ | .privateWrite | .allowedWrite _ => false

/-- LOCAL_WRITE_GRANT (R60). -/
def execLocalWriteGrant (s : State) : Host.Outcome State Fault Refusal :=
  .next <|
    match s.lp.cycle with
    | none => s
    | some c => if c.stage.isPlacedWrite && s.granted .localPort then s.endLocalWrite c else s

/-- POST_WAIT_EXPIRY (R63). -/
def execPostWaitExpiry (s : State) : Host.Outcome State Fault Refusal :=
  .next <|
    match s.lp.cycle with
    | none => s
    | some c =>
      match c.stage with
      | .heldWrite w _ => (s.setStage c (.overflowWrite w)).requestGrant .localPort
      | .complete | .read | .privateWrite | .allowedWrite _ | .overflowWrite _ => s

/-- OVERFLOW_WRITE_GRANT (R63). -/
def execOverflowWriteGrant (s : State) : Host.Outcome State Fault Refusal :=
  .next <|
    match s.lp.cycle with
    | none => s
    | some c => if c.stage.isOverflow && s.granted .localPort then s.endLocalWrite c else s

/-- The access of a cycle that ends: a grant in progress completes, and a waiting request, hold or merge hold ends with
nothing changed (R178). -/
def State.endAccess (s : State) (c : LocalCycle) : State :=
  match c.stage with
  | .complete | .heldWrite _ _ => s
  | .read => if s.granted .localPort then s.releaseGrant else s.withdrawRequest .localPort
  | .privateWrite | .allowedWrite _ | .overflowWrite _ =>
    if s.granted .localPort then s.endLocalWrite c else (s.withdrawRequest .localPort).setMergeHold false

/-- The port with no cycle, WAIT deasserted and D[15:0] not driven. -/
def LocalPort.idle (lp : LocalPort) : LocalPort := { lp with cycle := none, wait := false, dataOut := DataOut.off }

/-- LOCAL_CYCLE_ABANDON: the local side ends a cycle while WAIT is asserted (R178). -/
def execLocalCycleAbandon (s : State) : Host.Outcome State Fault Refusal :=
  .next <|
    match s.lp.cycle with
    | none => s
    | some c => if s.lp.wait then (s.endAccess c).modLp LocalPort.idle else s

/-- LOCAL_CYCLE_END: the local side ends a cycle that WAIT does not stretch (R178). -/
def execLocalCycleEnd (s : State) : Host.Outcome State Fault Refusal :=
  .next <|
    match s.lp.cycle with
    | none => s
    | some c => if s.lp.wait then s else (s.endAccess c).modLp LocalPort.idle

end Sys2Proof.Machine
end

