-- ==== Sys2Proof/Machine/Timers.lean ====
section
/-!
DEFINITION. Timer expiries (R19, R21, R69, R87, R118, R136). An expiry row is taken whenever its timer runs (log 18).
-/

namespace Sys2Proof.Machine

/-- Entry to LISTEN: the join timer starts (R19). -/
def State.enterListen (s : State) : State :=
  s.modLi fun li => { li with line := .listen, joinTimer := .ofSpans s.lp.params.joinInterval }

/-- What the first ONLINE entry starts at one window: a followed window's delay in GAP or UNSYNCED (R97), an owned
window's mark timer (R69). -/
def State.startWindow (s : State) (w : WinId) : State :=
  let x := s.win w
  if !x.enabled then s
  else if x.ownership = .owner then s.modWin w fun y => { y with markTimer := s.freshMarkTimer }
  else if x.followed ∧ (x.sync = .gap ∨ x.sync = .unsynced) then s.modWin w fun y => { y with wait := s.drawnTimer }
  else s

/-- The first ONLINE entry since power-on or RESET (R102, R189). -/
def State.firstOnline (s : State) : State :=
  allWindows.foldl State.startWindow (s.modLi fun li => { li with onlineSeen := true }).queueStartSweeps

/-- JOIN_TIMER_EXPIRY (R19). -/
def execJoinTimerExpiry (s : State) : Host.Outcome State Fault Refusal :=
  .next <|
    if s.li.line = .listen then
      let t := s.modLi fun li => { li with line := .online, joinTimer := .stopped }
      if s.li.onlineSeen then t else t.firstOnline
    else s

/-- RECOVERY_TIMER_EXPIRY (R21). -/
def execRecoveryTimerExpiry (s : State) : Host.Outcome State Fault Refusal :=
  .next <|
    if s.li.line = .faulted ∧ s.li.recoveryTimer.isRunning then
      (s.modLi fun li => { li with recoveryTimer := .stopped, faults := 0, recoveredOnce := true }).enterListen
    else s

/-- MARK_TIMER_EXPIRY (R69). -/
def execMarkTimerExpiry (w : WinId) (s : State) : Host.Outcome State Fault Refusal :=
  .next <|
    if (s.win w).markTimer.isRunning then s.modWin w fun x => { x with markTimer := .running 0 } else s

/-- A followed window in GAP or UNSYNCED waits out a delay (R87). -/
def Window.waitsDelay (x : Window) : Bool :=
  x.followed && (decide (x.sync = .gap) || decide (x.sync = .unsynced)) && x.wait.isDelay

/-- A followed window in REFRESHING runs its refresh timeout (R118). -/
def Window.waitsTimeout (x : Window) : Bool := x.followed && decide (x.sync = .refreshing) && x.wait.isTimeout

/-- REQUEST_DELAY_EXPIRY (R87). -/
def execRequestDelayExpiry (w : WinId) (s : State) : Host.Outcome State Fault Refusal :=
  .next <| if (s.win w).waitsDelay then s.requestDelayOver w else s

/-- REFRESH_TIMEOUT_EXPIRY (R118, R123). -/
def execRefreshTimeoutExpiry (w : WinId) (s : State) : Host.Outcome State Fault Refusal :=
  .next <|
    if (s.win w).waitsTimeout then
      ((s.settleWriter w).failAttempt w).resumeHold
    else s

/-- A claim timer's expiry at a CLAIMING window (R136). -/
def State.claimExpires (s : State) (w : WinId) : State :=
  let x := s.win w
  if x.claimAttempts < Config.claimLimit then
    (s.modWin w fun y => { y with claimAttempts := y.claimAttempts + 1, claimTimer := .stopped }).makeDue (.claim w)
  else if x.desc.takeoverPermitted then ((s.settleWriter w).takeover w).resumeHold
  else
    (s.endClaim w).recordEvent { cause := .claimFailed, window := some w, station := some x.recordedOwner }

/-- CLAIM_TIMER_EXPIRY (R136). -/
def execClaimTimerExpiry (w : WinId) (s : State) : Host.Outcome State Fault Refusal :=
  .next <|
    if (s.win w).ownership = .claiming ∧ (s.win w).claimTimer.isRunning then s.claimExpires w else s

end Sys2Proof.Machine
end

