-- ==== Sys2Proof/Machine/ControlArea.lean ====
section
/-!
DEFINITION. The control area as the local port sees it (chapter 10, 10.1; chapter 11, 11.3): the codes, the window status
records, every control word, and the rows that read or write a control word.
-/

namespace Sys2Proof.Machine

/-! ### Codes (chapter 11) -/

/-- The code of a load result. -/
def LoadResult.code : LoadResult → Nat
  | .loading => 0
  | .good => 1
  | .badMarker => 2
  | .badLength => 3
  | .badCrc => 4
  | .badStation => 5
  | .noDomain => 6

/-- The code of a line state. -/
def LineState.code : LineState → Nat
  | .offline => 0
  | .configFailed => 1
  | .listen => 2
  | .online => 3
  | .halted => 4
  | .faulted => 5

/-- The code of a command's result. -/
def CommandResult.code : CommandResult → Nat
  | .none => 0
  | .done => 1
  | .refused => 2

/-- The code of a reason. -/
def Reason.code : Reason → Nat
  | .none => 0
  | .badWindow => 1
  | .wrongRole => 2
  | .wrongState => 3
  | .notSynced => 4
  | .full => 5
  | .empty => 6
  | .badArgument => 7

/-- The code of a window load result. -/
def Standing.code : Standing → Nat
  | .notLoaded => 0
  | .off => 1
  | .rejected _ => 2
  | .enabled => 3

/-- The code of an ownership state. -/
def Ownership.code : Ownership → Nat
  | .owner => 1
  | .granting => 2
  | .follower => 3
  | .claiming => 4

/-- The code of a sync state. -/
def SyncState.code : SyncState → Nat
  | .unsynced => 1
  | .synced => 2
  | .gap => 3
  | .refreshing => 4
  | .stale => 5

/-- The code of a gap origin; 0 is absent. -/
def gapCode : Option GapOrigin → Nat
  | none => 0
  | some .here => 1
  | some .already => 2

/-- A flag as a number. -/
def flagNat (b : Bool) : Nat := if b then 1 else 0

/-! ### The window status record (R51) -/

/-- What the role bits show for a role code (log 9). -/
def shownRoleBits (code : Byte) : Nat := if code.toNat ≤ 3 then code.toNat else (Config.shownRole code).toNat

/-- The reject reason a standing shows. -/
def Standing.reason : Standing → Nat
  | .rejected n => n.val
  | .notLoaded | .off | .enabled => 0

/-- The descriptor's part of the record, bytes 0 and 1: role and page count read as 0 when NOT_LOADED (R51). -/
def Window.statusHead (x : Window) : List Nat :=
  let loaded := decide (x.standing ≠ .notLoaded)
  [x.standing.code + 4 * (if loaded then shownRoleBits x.desc.roleCode else 0) + 16 * x.standing.reason,
   if loaded then x.desc.pageCount.toNat else 0]

/-- What bytes 11 of the record shows: the bound context and its deferred records (R51). -/
def State.contextByte (s : State) (w : WinId) : Nat :=
  match s.boundCtx w with
  | none => 0
  | some i => (i.val + 1) + 4 * ((s.bindingOf w).elim 0 fun b => b.deferred.length)

/-- Byte 13: the flags (R51). -/
def Window.flagByte (x : Window) : Nat :=
  flagNat x.markNow + 2 * flagNat x.contextWait + 4 * flagNat x.keep + 8 * flagNat x.returned + 16 * flagNat x.updated

/-- The run-time part of an enabled window's record, bytes 2 to 14 (R51). -/
def State.statusTail (s : State) (w : WinId) : List Nat :=
  let x := s.win w
  let expected := x.expected.getD 0
  [x.ownership.code, x.sync.code + 8 * gapCode x.gapOrigin + 32 * flagNat x.expected.isSome,
   x.recordedOwner.toNat, x.generation.toNat, (lowByte x.nextSeq).toNat, (highByte x.nextSeq).toNat,
   (lowByte expected).toNat, (highByte expected).toNat, x.retry + 4 * x.behind + 32 * x.claimAttempts,
   s.contextByte w, (x.grantee.getD 0).toNat, x.flagByte, x.updateCount]

/-- The sixteen bytes of window `w`'s record as they stand; a window that is not ENABLED shows 0 in every run-time field
(R51). -/
def State.statusBytes (s : State) (w : WinId) : List Nat :=
  let x := s.win w
  x.statusHead ++ (if x.enabled then s.statusTail w else List.replicate 13 0) ++ [w.val]

/-- The word at an even offset of a list of bytes, the byte at the even offset its less significant one (R194). -/
def wordAt (bytes : List Nat) (i : Nat) : Word :=
  wordOf (BitVec.ofNat 8 (bytes.getD (2 * i) 0)) (BitVec.ofNat 8 (bytes.getD (2 * i + 1) 0))

/-- The eight words of window `w`'s record as they stand. -/
def State.statusWords (s : State) (w : WinId) : Vector Word 8 := Vector.ofFn fun i => wordAt (s.statusBytes w) i.val

/-- Word `i` of window `w`'s record as a read returns it: the first word as it stands, any other from the capture if it holds
that window's record (R52, R180). -/
def State.statusWord (s : State) (w : WinId) (i : Fin 8) : Word :=
  match s.lp.capture with
  | some c => if c.window = w ∧ i ≠ 0 then c.words[i] else (s.statusWords w)[i]
  | none => (s.statusWords w)[i]

/-! ### Control words (chapter 11) -/

/-- A number as a control word. -/
def wordNat (n : Nat) : Word := BitVec.ofNat 16 n

/-- A byte as a control word, in D[7:0]. -/
def wordByte (b : Byte) : Word := b.setWidth 16

/-- The station parameters in force, in the order of the map. -/
def Params.words (p : Params) : List Nat :=
  [p.rateCode, p.backoffFloor, p.joinInterval, p.markInterval, p.refreshTimeout, p.claimTimeout, p.waitLimit,
   p.eventVector.toNat, p.messageVector.toNat]

/-- The updated-window word (R171). -/
def State.updatedWord (s : State) : Word :=
  allWindows.foldl (fun acc w => if (s.win w).updated then acc ||| (1 <<< w.val) else acc) 0

/-- The event words from offset 0x066 to 0x074 (R164). -/
def EventRecord.words (r : EventRecord) : List Word :=
  [wordNat (r.cause.elim 0 Cause.code),
   wordNat (flagNat r.window.isSome + 2 * flagNat r.station.isSome + 4 * flagNat r.address.isSome +
     8 * flagNat r.sequence.isSome),
   wordNat (r.window.elim 0 fun w => w.val), wordByte (r.station.getD 0), r.address.getD 0, r.sequence.getD 0,
   r.time.setWidth 16, (r.time >>> 16).setWidth 16]

/-- The message head words from offset 0x102 to 0x10C; 0 while the in FIFO is empty (R161). -/
def MessageUnit.headWords (u : MessageUnit) : List Word :=
  match u.inFifo with
  | [] => []
  | m :: _ =>
    [wordByte m.source, wordByte m.destination, wordByte m.urgency, wordByte m.kind, wordByte m.subkind,
     wordNat m.payload.length]

/-- The message head's payload bytes (R161). The head holds as many as its length (R160); the rest of the map's 32 read 0
(DESIGN CHOICE, log 36). -/
def MessageUnit.headPayload (u : MessageUnit) : List Nat :=
  match u.inFifo with
  | [] => []
  | m :: _ => m.payload.map (·.toNat)

/-- The high half of the line time counter as a read returns it (R25). -/
def State.timeHigh (s : State) : Word := s.li.timeCapture.getD ((s.li.lineTime >>> 16).setWidth 16)

/-- A control word by its offset from byte address 0x10000, as a word read returns it; a word the map does not name reads
0 (R180, chapter 11). -/
def State.controlWord (s : State) (off : Nat) : Word :=
  let lp := s.lp
  let en := s.en
  let mu := s.mu
  if off = 0x000 then wordNat lp.loadResult.code
  else if off = 0x002 then wordByte lp.params.station
  else if off = 0x004 then lp.params.domainSet
  else if off = 0x006 then lp.defaulted.setWidth 16
  else if 0x008 ≤ off ∧ off ≤ 0x018 then wordNat (lp.params.words.getD ((off - 0x008) / 2) 0)
  else if off = 0x020 then wordNat s.li.line.code
  else if off = 0x022 then s.li.lineTime.setWidth 16
  else if off = 0x024 then s.timeHigh
  else if 0x040 ≤ off ∧ off ≤ 0x056 then en.counters.toList.getD ((off - 0x040) / 2) 0
  else if off = 0x058 then en.sticky.setWidth 16
  else if off = 0x060 then wordNat (flagNat en.captureHold)
  else if off = 0x062 then wordNat en.moreEvents
  else if off = 0x064 then en.summary.setWidth 16
  else if 0x066 ≤ off ∧ off ≤ 0x074 then en.record.words.getD ((off - 0x066) / 2) 0
  else if off = 0x080 then en.pending.setWidth 16
  else if off = 0x082 then en.mask.setWidth 16
  else if off = 0x084 then s.updatedWord
  else if off = 0x0A0 then lp.commandWord
  else if 0x0A2 ≤ off ∧ off ≤ 0x0A8 then lp.args.toList.getD ((off - 0x0A2) / 2) 0
  else if off = 0x0AA then lp.status.code
  else if off = 0x0AC then wordNat lp.status.result.code
  else if off = 0x0AE then wordNat lp.status.reason.code
  else if off = 0x0B0 then wordNat (flagNat lp.status.probe.found)
  else if off = 0x0B2 then wordNat lp.status.probe.window.val
  else if off = 0x0B4 then wordNat lp.status.probe.pageIndex
  else if off = 0x0B6 then wordNat lp.status.probe.localPage
  else if off = 0x0C0 then wordByte mu.staging.destination
  else if off = 0x0C2 then wordByte mu.staging.urgency
  else if off = 0x0C4 then wordByte mu.staging.kind
  else if off = 0x0C6 then wordByte mu.staging.subkind
  else if off = 0x0C8 then wordByte mu.staging.length
  else if off = 0x0CA then wordNat mu.outQueue.length
  else if 0x0D0 ≤ off ∧ off ≤ 0x0EF then wordAt (mu.staging.payload.toList.map (·.toNat)) ((off - 0x0D0) / 2)
  else if off = 0x100 then wordNat mu.inFifo.length
  else if 0x102 ≤ off ∧ off ≤ 0x10C then mu.headWords.getD ((off - 0x102) / 2) 0
  else if 0x110 ≤ off ∧ off ≤ 0x12F then wordAt mu.headPayload ((off - 0x110) / 2)
  else if 0x200 ≤ off ∧ off ≤ 0x2FF then
    s.statusWord (BitVec.ofNat 4 ((off - 0x200) / 16)).toFin (BitVec.ofNat 3 ((off - 0x200) / 2)).toFin
  else 0

/-! ### Rows of the control area -/

/-- A[16:1] of the control word at an offset. -/
def controlAddr (off : Nat) : BitVec 16 := BitVec.ofNat 16 (0x8000 + off / 2)

/-- A control access completes at the start of its cycle, without WAIT (R178, R179). -/
def State.controlCycle (s : State) (write : Bool) (a : BitVec 16) (be : BitVec 2) (data : Word) : State :=
  s.beginCycle write a be data .complete

/-- A read of a control word: its selected bytes driven (R178, R194). -/
def State.controlRead (s : State) (off : Nat) (be : BitVec 2) (value : Word) : State :=
  (s.controlCycle false (controlAddr off) be 0).drive (driveWord be value)

/-- MASK_WORD_WRITE: the four mask bits lie in the byte at the even address (R175, R180). -/
def execMaskWordWrite (be : BitVec 2) (data : Word) (s : State) : Host.Outcome State Fault Refusal :=
  .next <|
    if s.portFree then
      let t := s.controlCycle true maskWordAddr be data
      if be0 be then t.modEn fun e => { e with mask := data.setWidth 4 } else t
    else s

/-- The high half of the line time counter captured (R25). -/
def State.captureTime (s : State) : State :=
  s.modLi fun li => { li with timeCapture := some ((li.lineTime >>> 16).setWidth 16) }

/-- The captured high half no longer held (R25). -/
def State.releaseTime (s : State) : State := s.modLi fun li => { li with timeCapture := none }

/-- Window `w`'s record as it stands copied into the status capture (R52). -/
def State.captureRecord (s : State) (w : WinId) : State :=
  s.modLp fun lp => { lp with capture := some { window := w, words := s.statusWords w } }

/-- LINE_TIME_LOW_READ: the high half is captured (R25); a read of neither byte changes nothing (R178). -/
def execLineTimeLowRead (be : BitVec 2) (s : State) : Host.Outcome State Fault Refusal :=
  .next <|
    if s.portFree then
      let t := s.controlRead 0x022 be (s.li.lineTime.setWidth 16)
      if be = 0 then t else t.captureTime
    else s

/-- LINE_TIME_HIGH_READ: the captured value, which is then no longer held, or the live high half (R25). -/
def execLineTimeHighRead (be : BitVec 2) (s : State) : Host.Outcome State Fault Refusal :=
  .next <|
    if s.portFree then
      let t := s.controlRead 0x024 be s.timeHigh
      if be = 0 then t else t.releaseTime
    else s

/-- The offset of word `i` of window `w`'s status record. -/
def statusOffset (w : WinId) (i : Nat) : Nat := 0x200 + 16 * w.val + 2 * i

/-- STATUS_RECORD_FIRST_READ: the record as it stands fills the status capture, and its first word is returned (R52). -/
def execStatusRecordFirstRead (w : WinId) (be : BitVec 2) (s : State) : Host.Outcome State Fault Refusal :=
  .next <|
    if s.portFree then
      let t := s.controlRead (statusOffset w 0) be (s.statusWords w)[(0 : Fin 8)]
      if be = 0 then t else t.captureRecord w
    else s

/-- STATUS_RECORD_WORD_READ: word 1 to 7 of a record (R52). -/
def execStatusRecordWordRead (w : WinId) (word : Fin 8) (be : BitVec 2) (s : State) : Host.Outcome State Fault Refusal :=
  .next <|
    if s.portFree ∧ word ≠ 0 then s.controlRead (statusOffset w word.val) be (s.statusWord w word) else s

/-- The offset from byte address 0x10000 of a word address above the replica. -/
def controlOffset (a : BitVec 16) : Nat := evenAddr a - 0x10000

/-- The state after the control word at an offset has been read: only the low half of the line time counter (and the high
half that it captured) and the first word of a window status record change anything by a read (R180, R25, R52). -/
def State.afterRead (s : State) (off : Nat) : State :=
  if off = 0x022 then s.captureTime
  else if off = 0x024 then s.releaseTime
  else if 0x200 ≤ off ∧ off ≤ 0x2FF ∧ off % 16 = 0 then s.captureRecord (BitVec.ofNat 4 ((off - 0x200) / 16)).toFin
  else s

/-- A read above the replica (R179, R180): it completes at the start of its cycle; a control word's value, or 0 for a word
the map does not name and for an unused address. A read of neither byte changes nothing (R178). -/
def State.readControl (s : State) (a : BitVec 16) (be : BitVec 2) : State :=
  let off := controlOffset a
  let t := s.controlRead off be (s.controlWord off)
  if be = 0 then t else t.afterRead off

/-- LOCAL_REPLICA_READ (R33), a read cycle by the region its address lies in (R179). The table has no row for a read of a
control word without a row of its own or of an unused address: such a cycle is this row with an address above the replica
(DESIGN CHOICE, log 38). -/
def execLocalReplicaRead (a : BitVec 16) (be : BitVec 2) (s : State) : Host.Outcome State Fault Refusal :=
  .next <|
    if s.portFree then
      if inReplica a then s.beginReplicaRead a be else s.readControl a be
    else s

/-- An argument word written (R180). -/
def State.writeArg (s : State) (i : Nat) (be : BitVec 2) (data : Word) : State :=
  if h : i < 4 then
    s.modLp fun lp => { lp with args := lp.args.set i (mergeWord be lp.args[i] data) }
  else s

/-- A staging field written: D[7:0] of its word (R180; log 11). -/
def Staging.writeField (m : Staging) (off : Nat) (b : Byte) : Staging :=
  if off = 0x0C0 then { m with destination := b }
  else if off = 0x0C2 then { m with urgency := b }
  else if off = 0x0C4 then { m with kind := b }
  else if off = 0x0C6 then { m with subkind := b }
  else if off = 0x0C8 then { m with length := b }
  else m

/-- A staging payload byte written (R180). -/
def Staging.writePayload (m : Staging) (i : Nat) (b : Byte) : Staging :=
  if h : i < 32 then { m with payload := m.payload.set i b } else m

/-- The staging payload word at byte `i` written by its selected bytes (R180, R194). -/
def Staging.writePayloadWord (m : Staging) (i : Nat) (be : BitVec 2) (data : Word) : Staging :=
  let m' := if be0 be then m.writePayload i (lowByte data) else m
  if be1 be then m'.writePayload (i + 1) (highByte data) else m'

/-- What a write to a control word without a row of its own stores; any other word ignores it (R180). -/
def State.storeControl (s : State) (off : Nat) (be : BitVec 2) (data : Word) : State :=
  if 0x0A2 ≤ off ∧ off ≤ 0x0A8 then s.writeArg ((off - 0x0A2) / 2) be data
  else if 0x0C0 ≤ off ∧ off ≤ 0x0C8 then
    if be0 be then s.modMu fun u => { u with staging := u.staging.writeField off (lowByte data) } else s
  else if 0x0D0 ≤ off ∧ off ≤ 0x0EF then
    s.modMu fun u => { u with staging := u.staging.writePayloadWord (off - 0x0D0) be data }
  else s

/-- CONTROL_WRITE (R180). -/
def execControlWrite (a : BitVec 16) (be : BitVec 2) (data : Word) (s : State) : Host.Outcome State Fault Refusal :=
  .next <|
    if s.portFree && isControlWrite a be then
      (s.controlCycle true a be data).storeControl (controlOffset a) be data
    else s

end Sys2Proof.Machine
end

