-- ==== Sys2Proof/Machine/Commands.lean ====
section
/-!
DEFINITION. The commands of the command word (10.2): each is taken at the whole-word write of its code, executes in full
and replaces the command status (R182).
-/

namespace Sys2Proof.Machine

/-- The command status replaced, the command word holding the code, and the write's cycle begun and complete (R180, R182). -/
def State.reply (s : State) (code : Word) (result : CommandResult) (reason : Reason) (probe : ProbeFields) : State :=
  (s.controlCycle true commandWordAddr 3 code).modLp fun lp =>
    { lp with commandWord := code, status := { code := code, result := result, reason := reason, probe := probe } }

/-- DONE (R182). -/
def State.done (s : State) (code : Word) : State := s.reply code .done .none ProbeFields.clear

/-- REFUSED with a reason (R182). -/
def State.refuse (s : State) (code : Word) (reason : Reason) : State := s.reply code .refused reason ProbeFields.clear

/-- REFRESH of a followed window that is not REFRESHING (R96): a record write that waits for the window ends first (R81). -/
def State.refreshWindow (s : State) (w : WinId) : State :=
  (((s.settleWriter w).modWin w fun x => { x with retry := 0 }).enterGap w).resumeHold

/-- REFRESH (R48, R95, R96). -/
def execRefresh (s : State) : Host.Outcome State Fault Refusal :=
  .next <|
    if s.portFree then
      match s.enabledWindowArg (s.arg 0) with
      | none => s.refuse 0x0001 .badWindow
      | some w =>
        if (s.win w).owned then s.refuse 0x0001 .wrongRole
        else if (s.win w).sync = .refreshing then s.refuse 0x0001 .wrongState
        else (s.refreshWindow w).done 0x0001
    else s

/-- CLAIM (R48, R133). -/
def execClaim (s : State) : Host.Outcome State Fault Refusal :=
  .next <|
    if s.portFree then
      match s.enabledWindowArg (s.arg 0) with
      | none => s.refuse 0x0002 .badWindow
      | some w =>
        if !(s.win w).isShare then s.refuse 0x0002 .wrongRole
        else if (s.win w).ownership ≠ .follower then s.refuse 0x0002 .wrongState
        else if (s.win w).sync ≠ .synced then s.refuse 0x0002 .notSynced
        else (s.startClaim w).done 0x0002
    else s

/-- KEEP (R48, R140). -/
def execKeep (s : State) : Host.Outcome State Fault Refusal :=
  .next <|
    if s.portFree then
      match s.enabledWindowArg (s.arg 0) with
      | none => s.refuse 0x0003 .badWindow
      | some w =>
        if !(s.win w).isShare then s.refuse 0x0003 .wrongRole
        else if s.arg 1 ≠ 0 ∧ s.arg 1 ≠ 1 then s.refuse 0x0003 .badArgument
        else (s.modWin w fun x => { x with keep := decide (s.arg 1 = 1) }).done 0x0003
    else s

/-- ACK_UPDATES (R172). -/
def execAckUpdates (s : State) : Host.Outcome State Fault Refusal :=
  .next <| if s.portFree then (s.clearUpdates (s.arg 0)).done 0x0004 else s

/-- NOTIFY_ACK (R174). -/
def execNotifyAck (s : State) : Host.Outcome State Fault Refusal :=
  .next <|
    if s.portFree then
      (s.modEn fun e => { e with pending := e.pending &&& ~~~((s.arg 0).setWidth 4) }).done 0x0005
    else s

/-- CLEAR_EVENT (R167). -/
def execClearEvent (s : State) : Host.Outcome State Fault Refusal :=
  .next <| if s.portFree then (s.modEn EventUnit.clearEvent).done 0x0006 else s

/-- CLEAR_COUNTERS (R170). -/
def execClearCounters (s : State) : Host.Outcome State Fault Refusal :=
  .next <| if s.portFree then (s.modEn EventUnit.clearCounters).done 0x0007 else s

/-- PROBE (R47). -/
def execProbe (s : State) : Host.Outcome State Fault Refusal :=
  .next <|
    if s.portFree then
      if 15 < (s.arg 0).toNat then s.refuse 0x0008 .badArgument
      else s.reply 0x0008 .done .none (s.probe (s.arg 0) (s.arg 1))
    else s

/-- MESSAGE_SEND (R155). -/
def execMessageSend (s : State) : Host.Outcome State Fault Refusal :=
  .next <|
    if s.portFree then
      if !s.li.line.receives then s.refuse 0x0009 .wrongState
      else if !s.mu.staging.legal s.station then s.refuse 0x0009 .badArgument
      else if Config.outQueueSize ≤ s.mu.outQueue.length then s.refuse 0x0009 .full
      else (s.modMu fun u => { u with outQueue := u.outQueue ++ [u.staging.message] }).done 0x0009
    else s

/-- MESSAGE_POP (R161). -/
def execMessagePop (s : State) : Host.Outcome State Fault Refusal :=
  .next <|
    if s.portFree then
      if s.mu.inFifo = [] then s.refuse 0x000A .empty
      else (s.modMu fun u => { u with inFifo := u.inFifo.tail }).done 0x000A
    else s

/-- LINE_HALT (R20). -/
def execLineHalt (s : State) : Host.Outcome State Fault Refusal :=
  .next <|
    if s.portFree then
      if s.li.line = .online then (s.modLi fun li => { li with line := .halted }).done 0x000B
      else s.refuse 0x000B .wrongState
    else s

/-- LINE_RESUME (R22). -/
def execLineResume (s : State) : Host.Outcome State Fault Refusal :=
  .next <|
    if s.portFree then
      match s.li.line with
      | .halted => (s.modLi fun li => { li with line := .online }).done 0x000C
      | .faulted => ((s.modLi fun li => { li with faults := 0, recoveryTimer := .stopped }).enterListen).done 0x000C
      | .offline | .configFailed | .listen | .online => s.refuse 0x000C .wrongState
    else s

/-! ### SOFT_RESTART (R190) -/

/-- The Line Interface at SOFT_RESTART (R23). -/
def State.restartLine (s : State) : State :=
  (s.modLi fun li =>
    { li with tx := .idle, rx := .hunt none, yield := false, faults := 0, recoveryTimer := .stopped }).enterListen

/-- The Receive Hold at SOFT_RESTART: a grant in progress makes its write, and every frame is discarded (R31); the sweep
reader's request is withdrawn (R37). -/
def State.restartHold (s : State) : State :=
  let t := s.withdrawRequest .sweepReader
  let u := match t.rh.work with
    | some wk => t.endWriting wk
    | none => t
  { u.dropPageRead with rh := { slots := [], work := none } }

/-- A bound context released at SOFT_RESTART, its window to GAP (R124). -/
def State.restartContext (s : State) (i : Fin 2) : State :=
  match s.ctx i with
  | .bound b => (s.freeContext i).enterGap b.window
  | .free | .reserved _ => s

/-- Every block's change at SOFT_RESTART, in an order that gives the outcomes R190 lists. -/
def State.softRestart (s : State) : State :=
  let a := s.restartLine.restartHold.emptyQueue.modSe SweepEngine.clear
  let b := ((a.restartContext 0).restartContext 1).restartOwnerships
  (b.modMu fun u => { u with outQueue := [] }).modLp fun lp => { lp with capture := none }

/-- SOFT_RESTART (R190). -/
def execSoftRestart (s : State) : Host.Outcome State Fault Refusal :=
  .next <|
    if s.portFree then
      if s.li.line.receives then s.softRestart.done 0x000D else s.refuse 0x000D .wrongState
    else s

/-- UNKNOWN_COMMAND (R182). -/
def execUnknownCommand (code : Word) (s : State) : Host.Outcome State Fault Refusal :=
  .next <| if s.portFree && !namesCommand code then s.refuse code .badArgument else s

end Sys2Proof.Machine
end

