-- ==== Sys2Proof/Machine/Power.lean ====
section
/-!
DEFINITION. Power-on, RESET and the configuration load (R39, R158, R168, R183 to R188).
-/

namespace Sys2Proof.Machine

/-- Every piece of state at its initial value. What is outside the part stays: the commands that wait and the levels the
line will carry (R183; log 25). -/
def State.held (s : State) : State :=
  { State.reset with pending := s.pending, li := { LineInterface.initial with lrx := s.li.lrx } }

/-- POWER_ON (R183). -/
def execPowerOn (s : State) : Host.Outcome State Fault Refusal := .next s.held

/-- RESET (R183). -/
def execReset (s : State) : Host.Outcome State Fault Refusal := .next s.held

/-- RESET_RELEASE: the part leaves reset and begins the load (R183, R184). -/
def execResetRelease (s : State) : Host.Outcome State Fault Refusal :=
  .next <|
    if s.lp.inReset then
      s.modLp fun lp => { lp with inReset := false, spiSelect := true, spiSent := Config.spiRead, load := .header }
    else s

/-! ### Integrity (R184, R185) -/

/-- The load ends in CONFIG_FAILED with a reason (R185, R186). -/
def State.failLoad (s : State) (r : LoadResult) : State :=
  (s.modLp fun lp => { lp with spiSelect := false, load := .none, loadResult := r }).modLi fun li =>
    { li with line := .configFailed }

/-- CONFIG_HEADER_READ (R184, R185). -/
def execConfigHeaderRead (marker length : Word) (s : State) : Host.Outcome State Fault Refusal :=
  .next <|
    if s.lp.load = .header then
      if marker ≠ Config.imageMarker then s.failLoad .badMarker
      else if length ≠ Config.imageLength then s.failLoad .badLength
      else s.modLp fun lp => { lp with load := .image }
    else s

/-- The image's byte at an offset. -/
def imageByte (img : List Byte) (i : Nat) : Byte := img.getD i 0

/-- The image's 16-bit field at an offset, most significant byte first (chapter 11). -/
def imageWord (img : List Byte) (i : Nat) : Word := wordOf (imageByte img (i + 1)) (imageByte img i)

/-- The image as read: marker and length, which have passed, and the rest. -/
def wholeImage (rest : List Byte) : List Byte := bytesOfWord Config.imageMarker ++ bytesOfWord Config.imageLength ++ rest

/-- Checks 3 to 5 of R185. -/
def imageFault (img : List Byte) : Option LoadResult :=
  if crc (img.take 228) ≠ imageWord img 228 then some .badCrc
  else if !isStation (imageByte img 4) then some .badStation
  else if imageWord img 5 = 0 then some .noDomain
  else none

/-! ### Station parameters (R187) -/

/-- A parameter's value: the image's if it is in range, else the default. -/
def inForce (value low high default : Nat) : Nat := if low ≤ value ∧ value ≤ high then value else default

/-- A parameter is out of range. -/
def outOfRange (value low high : Nat) : Bool := !(decide (low ≤ value) && decide (value ≤ high))

/-- The nine parameters with a default, in image order, each with its image value, range and default (R187). -/
def defaultable (img : List Byte) : List (Nat × Nat × Nat × Nat) :=
  [((imageByte img 7).toNat, 0, 3, 0), ((imageByte img 8).toNat, 0, 31, 8), ((imageByte img 9).toNat, 1, 255, 8),
   ((imageWord img 10).toNat, 0, 255, 16), ((imageByte img 12).toNat, 1, 255, 32), ((imageByte img 13).toNat, 1, 255, 16),
   ((imageWord img 14).toNat, 0, 255, 50), ((imageByte img 16).toNat, 0, 3, 0), ((imageByte img 17).toNat, 0, 3, 1)]

/-- The value in force of parameter `i` of that list. -/
def paramValue (img : List Byte) (i : Nat) : Nat :=
  match (defaultable img)[i]? with
  | none => 0
  | some (v, low, high, default) => inForce v low high default

/-- The station parameters in force (R187). -/
def imageParams (img : List Byte) : Params :=
  { station := imageByte img 4, domainSet := imageWord img 5, rateCode := paramValue img 0,
    backoffFloor := paramValue img 1, joinInterval := paramValue img 2, markInterval := paramValue img 3,
    refreshTimeout := paramValue img 4, claimTimeout := paramValue img 5, waitLimit := paramValue img 6,
    eventVector := BitVec.ofNat 2 (paramValue img 7), messageVector := BitVec.ofNat 2 (paramValue img 8) }

/-- The parameters replaced by their defaults, as their places in that list. -/
def defaultedParams (img : List Byte) : List Nat :=
  (List.range 9).filter fun i =>
    match (defaultable img)[i]? with
    | none => false
    | some (v, low, high, _) => outOfRange v low high

/-- CONFIG_DEFAULTED recorded once (R187). -/
def State.recordDefaulted (s : State) : State := s.recordEvent { cause := .configDefaulted }

/-- CONFIG_DEFAULTED recorded `n` times. -/
def State.recordDefaultedTimes (s : State) : Nat → State
  | 0 => s
  | n + 1 => s.recordDefaulted.recordDefaultedTimes n

/-! ### Windows and filters (R39, R158, R188) -/

/-- The lowest bit of a byte. -/
def lowBit (b : Byte) : Bool := b.getLsbD 0

/-- Window `w`'s descriptor (chapter 11, R188). -/
def imageDescriptor (img : List Byte) (w : WinId) : Descriptor :=
  let o := 18 + 12 * w.val
  { enable := lowBit (imageByte img o), roleCode := imageByte img (o + 1), domain := imageByte img (o + 2),
    lineBase := imageWord img (o + 3), pageCount := imageByte img (o + 5), localBase := imageByte img (o + 6),
    owner := imageByte img (o + 7), notifyVector := (imageByte img (o + 8)).setWidth 2,
    notifyModeCode := imageByte img (o + 9), autoClaim := lowBit (imageByte img (o + 10)),
    takeoverPermitted := lowBit (imageByte img (o + 11)) }

/-- A filter's enable byte is neither 0 nor 1 (R158). -/
def filterDefaulted (img : List Byte) (i : Nat) : Bool := decide (1 < (imageByte img (210 + 3 * i)).toNat)

/-- Filter `i` (R158). -/
def imageFilter (img : List Byte) (i : Nat) : MessageFilter :=
  { enable := decide (imageByte img (210 + 3 * i) = 1), kind := imageByte img (210 + 3 * i + 1),
    subkind := imageByte img (210 + 3 * i + 2) }

/-- The filters replaced by their default. -/
def defaultedFilters (img : List Byte) : List Nat := (List.range 6).filter (filterDefaulted img)

/-- The defaulted set: one bit per parameter, and bit 9 for any filter enable (R181, chapter 11). -/
def defaultedSet (img : List Byte) : BitVec 10 :=
  (defaultedParams img).foldl (fun acc i => acc ||| (1 <<< i)) (if (defaultedFilters img).isEmpty then 0 else 1 <<< 9)

/-! ### The end of a good load (R188) -/

/-- The sixteen windows taken and checked in window order (R39, R41). -/
def State.takeWindows (s : State) (img : List Byte) : State :=
  allWindows.foldl (fun t w => t.takeWindow (imageWord img 5) (imageByte img 4) w (imageDescriptor img w)) s

/-- The held occurrence given on the event vector (R168). -/
def EventUnit.giveHeld (e : EventUnit) (v : BitVec 2) : EventUnit :=
  if e.heldOccurrence then { e with heldOccurrence := false }.occur v else e

/-- The load ends good, at one event (R188). -/
def State.endLoad (s : State) (img : List Byte) : State :=
  let t := s.modLp fun lp =>
    { lp with loadResult := .good, params := imageParams img, defaulted := defaultedSet img }
  (t.modLi fun li => { li with rx := .hunt none }).enterListen.modEn fun e => e.giveHeld (imageParams img).eventVector

/-- A load that passes R185: parameters, windows, maps, filters, in that order (R187, R188). -/
def State.acceptImage (s : State) (img : List Byte) : State :=
  let a := s.recordDefaultedTimes (defaultedParams img).length
  let b := (a.takeWindows img).buildMaps
  let c := (b.modMu fun u => { u with filters := Vector.ofFn fun i => imageFilter img i.val }).recordDefaultedTimes
    (defaultedFilters img).length
  c.endLoad img

/-- CONFIG_IMAGE_READ (R184, R185, R187, R188). -/
def execConfigImageRead (rest : List Byte) (s : State) : Host.Outcome State Fault Refusal :=
  .next <|
    if s.lp.load = .image ∧ rest.length = Config.imageRest then
      let t := s.modLp fun lp => { lp with spiSelect := false, load := .none }
      match imageFault (wholeImage rest) with
      | some r => t.failLoad r
      | none => t.acceptImage (wholeImage rest)
    else s

end Sys2Proof.Machine
end

