-- ==== Sys2Proof/Machine/Tick.lean ====
section
/-!
DEFINITION. One bit time, bt: what the part's clock brings about whatever is commanded (R1, R2, R5, R6, R12, R14 to R17,
R24, R25 and the timers). What a bt finds is put on the queue as rows of the table, in the order of log 4: the line's rows
with the bt, then each expiry that has come.
-/

namespace Sys2Proof.Machine

/-! ### The bit on the line -/

/-- The bits of a frame that can be driven so far: of a SWEEP_DATA whose page is unread, those before the page (R37). -/
def OnLine.wire (f : OnLine) : List Bit :=
  if f.pagePending then delimiter ++ stuff ((bitsOfBytes f.frame.headerBody).take 48) else wireOf f.frame.content

/-- The bit the part drives in this bt, if it drives one (R1). -/
def Transmitter.drivenBit (tx : Transmitter) : Option Bit := tx.onLine.map fun f => f.wire.getD f.sent recessive

/-- LEN: the part's driver is enabled (R1). -/
def State.len (s : State) : Bool := s.li.tx.onLine.isSome

/-- LTX: the bit the part wishes on the line, recessive while LEN is deasserted (R1). -/
def State.ltx (s : State) : Bit := s.li.tx.drivenBit.getD recessive

/-- The level sampled in this bt: the next LRX sample, or the level this part gives the line when none is left (R1; log
16). -/
def State.sample (s : State) : Bit :=
  match s.li.lrx with
  | b :: _ => b
  | [] => s.ltx

/-! ### Transmitter and receiver in one bt -/

/-- What the readback comparison finds at the bit driven, the sample given (R14 to R16). -/
def Transmitter.finds (tx : Transmitter) (sample : Bit) : Option Instr :=
  match tx with
  | .idle => none
  | .arbitrate f =>
    let driven := f.wire.getD f.sent recessive
    let last := 9 + arbitrationBits f.frame.headerBody
    if driven = sample then (if f.sent + 1 = last then some .arbitrationWon else none)
    else if 9 ≤ f.sent ∧ f.sent < last ∧ driven = recessive then some .arbitrationLost
    else some .transmitFault
  | .send f =>
    let driven := f.wire.getD f.sent recessive
    if driven ≠ sample then some .transmitFault
    else if f.sent + 1 = f.wire.length ∧ !f.pagePending then some .frameCompleted
    else none

/-- The receiver after one bit; `wasIdle` tells whether the line was idle before it (R5, R6). -/
def Receiver.next (rx : Receiver) (sample wasIdle : Bool) : Receiver :=
  match rx with
  | .frame bits => .frame (bits ++ [sample])
  | .hunt none => if sample = dominant ∧ wasIdle then .hunt (some 0) else .hunt none
  | .hunt (some n) => if sample = recessive ∧ n < 7 then .hunt (some (n + 1)) else .hunt none

/-- The opening delimiter is complete with this bit (R5). -/
def Receiver.opens (rx : Receiver) (sample : Bit) : Bool :=
  match rx with
  | .hunt (some n) => decide (n = 7) && decide (sample = dominant)
  | .hunt none | .frame _ => false

/-- The pattern that ends a frame at the last of the bits received since its opening delimiter (R6). -/
def frameEnd (bits : List Bit) : Option Instr :=
  if trailingRun dominant bits = 7 then some (.stuffViolation .sevenDominant)
  else if trailingRun recessive bits = 8 then some .abort
  else
    match bits.reverse with
    | last :: before =>
      if last = dominant ∧ trailingRun recessive before.reverse = 7 then
        let content := bits.take (bits.length - 9)
        if (destuff content).isNone then some (.stuffViolation .missingAtClosing) else some (.frameReceived content)
      else none
    | [] => none

/-- What the receiver finds with this bit. While the part drives a frame and has not lost it, the end of that frame is the
transmitter's matter (R7). -/
def Receiver.finds (rx : Receiver) (sample : Bit) (driving : Bool) : Option Instr :=
  match rx with
  | .frame bits => if driving then none else frameEnd (bits ++ [sample])
  | .hunt _ => if rx.opens sample then some .openingDelimiter else none

/-! ### Counts and timers in one bt -/

/-- The recessive-run count after a sample (R2). -/
def LineInterface.nextRecessive (li : LineInterface) (sample : Bit) : Nat :=
  if sample = recessive then min Config.yieldInterval (li.recessiveRun + 1) else 0

/-- The dominant-run count after a sample (R2). -/
def LineInterface.nextDominant (li : LineInterface) (sample : Bit) : Nat :=
  if sample = dominant then min Config.stuckRun (li.dominantRun + 1) else 0

/-- The backoff counter after one bt (R24). -/
def nextBackoff (floor : Nat) (b : BitVec 6) : BitVec 6 := if b.toNat = floor then Config.backoffTop else b - 1

/-- The run counts that are reached in this bt (R2, R11, R17). -/
def LineInterface.runEvents (li : LineInterface) (sample : Bit) : List Instr :=
  let r := li.nextRecessive sample
  let d := li.nextDominant sample
  (if d = Config.stuckRun ∧ li.dominantRun ≠ d then [Instr.lineStuck] else []) ++
    (if r = Config.idleThreshold ∧ li.recessiveRun ≠ r then [Instr.lineIdle] else []) ++
    (if r = Config.yieldInterval ∧ li.recessiveRun ≠ r then [Instr.yieldIntervalExpiry] else [])

/-- A window's timers after one bt. -/
def Window.tick (x : Window) : Window :=
  { x with markTimer := x.markTimer.tick, wait := x.wait.tick, claimTimer := x.claimTimer.tick }

/-- One microsecond in bt, by the rate code (00_scope.md, "Units of time"). -/
def Params.microsecond (p : Params) : Nat := 2 ^ p.rateCode

/-- A held write's post wait timer after one bt (R62). -/
def LocalCycle.tick (c : LocalCycle) : LocalCycle :=
  match c.stage with
  | .heldWrite w t => { c with stage := .heldWrite w (t + 1) }
  | .complete | .read | .privateWrite | .allowedWrite _ | .overflowWrite _ => c

/-- The recovery timer after one bt: it counts idle bt only (R21). Whether the bt is idle is judged on the run count after
its own sample (DESIGN CHOICE, log 31). -/
def Timer.tickIdle (t : Timer) (idle : Bool) : Timer := if idle then t.tick else t

/-- A list of at most one row. -/
def rowOf (i : Option Instr) : List Instr := i.elim [] fun x => [x]

/-- The rows the line brings about in one bt, in the model's order: transmitter, receiver, run counts (log 4). -/
def State.tickEvents (s : State) : List Instr :=
  let b := s.sample
  let found := s.li.tx.finds b
  let driving := s.len && decide (found ≠ some .arbitrationLost)
  rowOf found ++ rowOf (s.li.rx.finds b driving) ++ s.li.runEvents b

/-- The Line Interface after one bt, before the rows it brings about are taken. The line is idle for the recovery timer
(R21) if the run count with this bt's sample in it is 16 or more: the bt that brings the count to 16 counts, and the dominant
bt that ends the idle line does not (DESIGN CHOICE, log 31). -/
def State.tickLine (s : State) : LineInterface :=
  let li := s.li
  let b := s.sample
  { li with
    tx := li.tx.mapOnLine fun f => { f with sent := f.sent + 1 }
    rx := li.rx.next b (decide (Config.idleThreshold ≤ li.recessiveRun))
    recessiveRun := li.nextRecessive b
    dominantRun := li.nextDominant b
    joinTimer := li.joinTimer.tick
    recoveryTimer := li.recoveryTimer.tickIdle (decide (Config.idleThreshold ≤ li.nextRecessive b))
    backoff := nextBackoff s.lp.params.backoffFloor li.backoff
    lineTime := li.lineTime + 1
    btCount := li.btCount + 1
    lrx := li.lrx.tail }

/-- One bt of the running part. The counters count first and the bt's rows come after, so a random delay drawn (R24) and a
time stamp taken (R25, R165) at an event of this bt see the counters with this bt counted (DESIGN CHOICE, log 32). -/
def State.advance (s : State) : State :=
  { s with li := s.tickLine, windows := s.windows.map Window.tick,
           lp := { s.lp with cycle := s.lp.cycle.map LocalCycle.tick }, pending := s.tickEvents }

/-! ### What must come before the next bt -/

/-- The expiry of window `w` that has come and has not been taken (R87, R118, R136). A mark timer that has counted to its
end needs no row: it has expired and stays so (R69). -/
def State.windowExpiry (s : State) (w : WinId) : Option Instr :=
  let x := s.win w
  if x.waitsDelay && x.wait.expired then some (.requestDelayExpiry w)
  else if x.waitsTimeout && x.wait.expired then some (.refreshTimeoutExpiry w)
  else if decide (x.ownership = .claiming) && x.claimTimer.expired then some (.claimTimerExpiry w)
  else none

/-- The held write's timer stands at the wait limit (R63). -/
def State.waitLimitReached (s : State) : Bool :=
  match s.lp.cycle with
  | none => false
  | some c =>
    match c.stage with
    | .heldWrite _ t => decide (s.lp.params.waitLimit * s.lp.params.microsecond ≤ t)
    | .complete | .read | .privateWrite | .allowedWrite _ | .overflowWrite _ => false

/-- The first expiry that has come and has not been taken, judged on the state the bt's line rows have left: a timer that
one of them has restarted or stopped does not expire (R63, R118, R136; log 4). -/
def State.expiryEvent (s : State) : Option Instr :=
  if s.li.line = .listen ∧ s.li.joinTimer.expired then some .joinTimerExpiry
  else if s.li.line = .faulted ∧ s.li.recoveryTimer.expired then some .recoveryTimerExpiry
  else
    match allWindows.findSome? s.windowExpiry with
    | some i => some i
    | none => if s.waitLimitReached then some .postWaitExpiry else none

/-- The row that ends the arbiter's grant in progress. -/
def State.grantEvent (s : State) : Option Instr :=
  match s.rm.arb.granted with
  | none => none
  | some .sweepReader => some .sweepPageReadGrant
  | some .writer =>
    s.rh.work.map fun wk =>
      match wk with
      | .record .. => .recordWriteGrant
      | .page .. => .pageWriteGrant
      | .deferred .. => .deferredRecordGrant
  | some .localPort =>
    s.lp.cycle.bind fun c =>
      match c.stage with
      | .read => some .localReadGrant
      | .privateWrite | .allowedWrite _ => some .localWriteGrant
      | .overflowWrite _ => some .overflowWriteGrant
      | .complete | .heldWrite _ _ => none

/-- The next bit to drive lies in a page that has not been read: R37 has the arbiter grant the read before it is due. -/
def State.needsPage (s : State) : Bool := s.li.tx.onLine.any fun f => f.pagePending && decide (f.wire.length ≤ f.sent)

/-- The row that must be taken before the next bt: an expiry that has come; a frame that can begin, which begins in that bt
(R12); the grant of a page that is due on the line (R37). -/
def State.beforeBt (s : State) : Option Instr :=
  match s.expiryEvent with
  | some i => some i
  | none =>
    if s.mayBegin && s.nextFrame.isSome then some .transmitStart
    else if s.needsPage then s.grantEvent
    else none

/-- What an empty queue's step does (log 2): nothing while the line side does not run (R18, R183), else what must come
before the bt, else one bt. -/
def State.tick (s : State) : State :=
  if s.lp.inReset || !s.li.line.receives then s
  else
    match s.beforeBt with
    | some i => { s with pending := [i] }
    | none => s.advance

end Sys2Proof.Machine
end

