-- ==== Sys2Proof/Machine/Dispatch.lean ====
section
/-!
DEFINITION. The meaning of every command: one arm per constructor, each one call of the command's meaning. It is the
command's effect on everything but the queue of commands that wait.
-/

namespace Sys2Proof.Machine

/-- A command's effect. -/
def exec (i : Instr) (s : State) : Host.Outcome State Fault Refusal :=
  match i with
  | .powerOn => Sys2Proof.Machine.execPowerOn s
  | .reset => Sys2Proof.Machine.execReset s
  | .resetRelease => Sys2Proof.Machine.execResetRelease s
  | .configHeaderRead marker length => Sys2Proof.Machine.execConfigHeaderRead marker length s
  | .configImageRead rest => Sys2Proof.Machine.execConfigImageRead rest s
  | .openingDelimiter => Sys2Proof.Machine.execOpeningDelimiter s
  | .stuffViolation cause => Sys2Proof.Machine.execStuffViolation cause s
  | .abort => Sys2Proof.Machine.execAbort s
  | .frameReceived stuffed => Sys2Proof.Machine.execFrameReceived stuffed s
  | .recordWriteGrant => Sys2Proof.Machine.execRecordWriteGrant s
  | .pageWriteGrant => Sys2Proof.Machine.execPageWriteGrant s
  | .deferredRecordGrant => Sys2Proof.Machine.execDeferredRecordGrant s
  | .localReplicaRead a be => Sys2Proof.Machine.execLocalReplicaRead a be s
  | .localReadGrant => Sys2Proof.Machine.execLocalReadGrant s
  | .localWritePrivate a be data => Sys2Proof.Machine.execLocalWritePrivate a be data s
  | .localWriteWindow a be data => Sys2Proof.Machine.execLocalWriteWindow a be data s
  | .localWriteGrant => Sys2Proof.Machine.execLocalWriteGrant s
  | .postWaitExpiry => Sys2Proof.Machine.execPostWaitExpiry s
  | .overflowWriteGrant => Sys2Proof.Machine.execOverflowWriteGrant s
  | .localCycleAbandon => Sys2Proof.Machine.execLocalCycleAbandon s
  | .sweepPageReadGrant => Sys2Proof.Machine.execSweepPageReadGrant s
  | .lineStuck => Sys2Proof.Machine.execLineStuck s
  | .lineIdle => Sys2Proof.Machine.execLineIdle s
  | .yieldIntervalExpiry => Sys2Proof.Machine.execYieldIntervalExpiry s
  | .transmitStart => Sys2Proof.Machine.execTransmitStart s
  | .arbitrationLost => Sys2Proof.Machine.execArbitrationLost s
  | .transmitFault => Sys2Proof.Machine.execTransmitFault s
  | .frameCompleted => Sys2Proof.Machine.execFrameCompleted s
  | .joinTimerExpiry => Sys2Proof.Machine.execJoinTimerExpiry s
  | .recoveryTimerExpiry => Sys2Proof.Machine.execRecoveryTimerExpiry s
  | .markTimerExpiry w => Sys2Proof.Machine.execMarkTimerExpiry w s
  | .requestDelayExpiry w => Sys2Proof.Machine.execRequestDelayExpiry w s
  | .refreshTimeoutExpiry w => Sys2Proof.Machine.execRefreshTimeoutExpiry w s
  | .claimTimerExpiry w => Sys2Proof.Machine.execClaimTimerExpiry w s
  | .refresh => Sys2Proof.Machine.execRefresh s
  | .claim => Sys2Proof.Machine.execClaim s
  | .keep => Sys2Proof.Machine.execKeep s
  | .ackUpdates => Sys2Proof.Machine.execAckUpdates s
  | .notifyAck => Sys2Proof.Machine.execNotifyAck s
  | .clearEvent => Sys2Proof.Machine.execClearEvent s
  | .clearCounters => Sys2Proof.Machine.execClearCounters s
  | .probe => Sys2Proof.Machine.execProbe s
  | .messageSend => Sys2Proof.Machine.execMessageSend s
  | .messagePop => Sys2Proof.Machine.execMessagePop s
  | .lineHalt => Sys2Proof.Machine.execLineHalt s
  | .lineResume => Sys2Proof.Machine.execLineResume s
  | .softRestart => Sys2Proof.Machine.execSoftRestart s
  | .unknownCommand code => Sys2Proof.Machine.execUnknownCommand code s
  | .maskWordWrite be data => Sys2Proof.Machine.execMaskWordWrite be data s
  | .lineTimeLowRead be => Sys2Proof.Machine.execLineTimeLowRead be s
  | .lineTimeHighRead be => Sys2Proof.Machine.execLineTimeHighRead be s
  | .statusRecordFirstRead w be => Sys2Proof.Machine.execStatusRecordFirstRead w be s
  | .statusRecordWordRead w word be => Sys2Proof.Machine.execStatusRecordWordRead w word be s
  | .controlWrite a be data => Sys2Proof.Machine.execControlWrite a be data s
  | .arbitrationWon => Sys2Proof.Machine.execArbitrationWon s
  | .localCycleEnd => Sys2Proof.Machine.execLocalCycleEnd s

end Sys2Proof.Machine
end

