-- ==== Sys2Proof/Safety.lean ====
section
/-!
DEFINITION. The words the statements are written in: the forms a state takes after a row, the invariants of a step, and
the frames the part can put on the line.
-/

namespace Sys2Proof.Machine

/-! ### The local port after a row -/

/-- Local Port and Control with a cycle whose access has completed (R178). -/
def LocalPort.served (lp : LocalPort) (write : Bool) (a : BitVec 16) (be : BitVec 2) (data : Word) : LocalPort :=
  { lp with cycle := some { write := write, a := a, be := be, data := data, stage := .complete } }

/-- Local Port and Control after a command: its cycle, the command word, and the command status as a whole (R182). -/
def LocalPort.answered (lp : LocalPort) (code : Word) (result : CommandResult) (reason : Reason) (probe : ProbeFields) :
    LocalPort :=
  { lp.served true commandWordAddr 3 code with
    commandWord := code, status := { code := code, result := result, reason := reason, probe := probe } }

/-- The state after a command that was DONE and changed nothing else. -/
def State.answersDone (s : State) (code : Word) : State :=
  { s with lp := s.lp.answered code .done .none { found := false, window := 0, pageIndex := 0, localPage := 0 } }

/-- The state after a command that was REFUSED. -/
def State.answersRefused (s : State) (code : Word) (reason : Reason) : State :=
  { s with lp := s.lp.answered code .refused reason { found := false, window := 0, pageIndex := 0, localPage := 0 } }

/-- The local port takes a cycle: the part is out of reset and no cycle is in progress. -/
abbrev State.idlePort (s : State) : Prop := s.lp.inReset = false ∧ s.lp.cycle = none

/-- The window argument `x` names the enabled window `w` (R48). -/
abbrev State.names (s : State) (x : Word) (w : WinId) : Prop := x.toNat = w.val ∧ (s.win w).standing = .enabled

/-- The window argument `x` is above 15, or its window is not enabled (R48). -/
abbrev State.namesNone (s : State) (x : Word) : Prop :=
  15 < x.toNat ∨ ∃ w : WinId, x.toNat = w.val ∧ (s.win w).standing ≠ .enabled

/-- The line states in which the line side runs: LISTEN, ONLINE, HALTED and FAULTED (R18). -/
abbrev LineState.runs (l : LineState) : Prop := l ≠ .offline ∧ l ≠ .configFailed

/-! ### Windows and contexts -/

/-- The window is FOLLOWER or CLAIMING, the states in which it is followed (chapter 5). -/
abbrev State.follows (s : State) (w : WinId) : Prop :=
  (s.win w).ownership = .follower ∨ (s.win w).ownership = .claiming

/-- The wait timer that an entry to GAP or UNSYNCED starts: the backoff counter times 32 (R24, R86), one bt at least (log
18), and none before the first ONLINE entry (R97). -/
def State.newDelay (s : State) : WaitTimer :=
  if s.li.onlineSeen then .requestDelay (max 1 (s.li.backoff.toNat * 32)) else .stopped

/-- Context `i` is the one window `w` binds: the one reserved for it, else the lowest-numbered free one (R113). -/
abbrev State.bindsContext (s : State) (w : WinId) (i : Fin 2) : Prop :=
  (s.ctx i = .reserved w ∧ ∀ j : Fin 2, j < i → s.ctx j ≠ .reserved w) ∨
    ((∀ j : Fin 2, s.ctx j ≠ .reserved w) ∧ s.ctx i = .free ∧ ∀ j : Fin 2, j < i → s.ctx j ≠ .free)

/-- A binding with nothing received yet (R113, R116). -/
def Binding.begun (w : WinId) (pages : Nat) (attempt : Option Attempt) : Binding :=
  { window := w, pageCount := pages, attempt := attempt, received := [], deferred := [], overflow := false,
    deferredGap := false }

/-- The window in STALE (R77, R94). -/
def Window.stale (x : Window) : Window :=
  { x with sync := .stale, gapOrigin := none, wait := .stopped, contextWait := false }

/-- The Sweep Engine with a queue whose head becomes current when no sweep is (R104). -/
def SweepEngine.withQueue (e : SweepEngine) (queue : List (WinId × Origin)) : SweepEngine :=
  match e.current, queue with
  | none, (w, o) :: rest =>
    { e with queue := rest, current := some { window := w, origin := o, sweepId := none, snapshot := none,
                                              phase := .beginDue, nextPage := 0, again := false, abandon := false } }
  | none, [] | some _, _ => { e with queue := queue }

/-- The body is an UPDATE's or a MARK's. -/
def Body.isPosting : Body → Bool
  | .update .. | .mark .. => true
  | .refreshReq .. | .sweepBegin .. | .sweepData .. | .sweepEnd .. | .claim _ | .grant .. | .deny .. | .takeover ..
  | .message .. => false

/-- The body is a CLAIM's, GRANT's, DENY's or TAKEOVER's. -/
def Body.isOwnership : Body → Bool
  | .claim _ | .grant .. | .deny .. | .takeover .. => true
  | .update .. | .mark .. | .refreshReq .. | .sweepBegin .. | .sweepData .. | .sweepEnd .. | .message .. => false

/-! ### What an event asks of other blocks -/

/-- Between `s` and `t` the Ownership Unit asks for a sweep of window `w` (R103): a current one of the window is marked again
if it is abandoned, and a window with neither a current nor a queued sweep joins the queue. -/
def State.asksSweep (s t : State) (w : WinId) (origin : Origin) : Prop :=
  (∀ c : Sweep, s.se.current = some c → c.window = w →
    t.se = { s.se with current := some { c with again := c.again || c.abandon } }) ∧
  ((∀ c ∈ s.se.current, c.window ≠ w) →
    t.se = if ∃ p ∈ s.se.queue, p.1 = w then s.se else s.se.withQueue (s.se.queue ++ [(w, origin)]))

/-- Between `s` and `t` the frame on the line is withdrawn by its source if `p` holds of it, and goes on (R13, R89, R137). -/
def State.withdraws (s t : State) (p : Source → Prop) : Prop :=
  (s.li.tx = .idle → t.li.tx = .idle) ∧
  (∀ o : OnLine, s.li.tx = .arbitrate o →
    ∃ b : Bool, t.li.tx = .arbitrate { o with withdrawn := b } ∧ (b = true ↔ o.withdrawn = true ∨ p o.source)) ∧
  ∀ o : OnLine, s.li.tx = .send o →
    ∃ b : Bool, t.li.tx = .send { o with withdrawn := b } ∧ (b = true ↔ o.withdrawn = true ∨ p o.source)

/-- Between `s` and `t` a frame of source `src` leaves the line without a completion: a SWEEP_BEGIN of an abandoned sweep clears
it and the queue's head becomes current, a window that is OWNER being queued again by its again flag (R110); any other
frame leaves the Sweep Engine as it is (R109). -/
def State.losesSweepFrame (s t : State) (src : Source) : Prop :=
  (∀ (w : WinId) (c : Sweep), src = .sweepBegin w → s.se.current = some c → c.window = w → c.abandon = true →
    t.se = ({ s.se with current := none } : SweepEngine).withQueue
      (if c.again = true ∧ (s.win w).ownership = .owner then s.se.queue ++ [(w, Origin.requested)] else s.se.queue)) ∧
  ((∀ (w : WinId) (c : Sweep), src = .sweepBegin w → s.se.current = some c → c.window = w → c.abandon = false) →
    t.se = s.se)

/-- `s1` is `s` after the taken local write of window `w` whose grant is in progress. -/
def State.finishesWrite (s s1 : State) (w : WinId) : Prop :=
  s.rm.arb.granted = some .localPort ∧ ∃ c : LocalCycle, s.lp.cycle = some c ∧
    ((c.stage = .allowedWrite w ∧ exec .localWriteGrant s = .next s1) ∨
      (c.stage = .overflowWrite w ∧ exec .overflowWriteGrant s = .next s1))

/-- `t` is `s` with window `w` leaving FOLLOWER and CLAIMING (R90, R124, R137), but for `w`'s own fields: a claim's CLAIM is
withdrawn, a bound and a reserved context of the window are freed, a reservation's REFRESH_REQ withdrawn, and with a context
freed the windows in context wait draw a new delay, of one bt at least (log 18). -/
def State.leavesFollowed (s t : State) (w : WinId) : Prop :=
  let claiming : Prop := (s.win w).ownership = .claiming
  let frees : Prop := s.reservedCtx w ≠ none ∨ s.boundCtx w ≠ none
  s.withdraws t (fun src => (src = .claim w ∧ claiming) ∨ (src = .refreshReq w ∧ s.reservedCtx w ≠ none)) ∧
    t.ownerDue = (if claiming then s.ownerDue.filter (fun x => decide (x ≠ .claim w)) else s.ownerDue) ∧
    (∀ i : Fin 2, s.reservedCtx w = some i ∨ s.boundCtx w = some i → t.ctx i = .free) ∧
    (∀ i : Fin 2, s.reservedCtx w ≠ some i → s.boundCtx w ≠ some i → t.ctx i = s.ctx i) ∧
    (∀ v : WinId, v ≠ w → (s.win v).contextWait = true → frees →
      t.win v = { s.win v with contextWait := false, wait := s.newDelay }) ∧
    ∀ v : WinId, v ≠ w → (s.win v).contextWait = false ∨ ¬frees → t.win v = s.win v

/-! ### Memory -/

/-- `m'` is `m` with bytes stored at ascending addresses from `a`, and nothing else changed. -/
def Memory.stored (m m' : Replica) (a : Nat) (bytes : List Byte) : Prop :=
  (∀ (k : Nat) (h : k < bytes.length), Memory.read m' ((a + k) % 65536) = bytes[k]) ∧
    ∀ x : Nat, (∀ k : Nat, k < bytes.length → x ≠ (a + k) % 65536) → Memory.read m' x = Memory.read m x

/-! ### Events -/

/-- The event unit after an event recorded by a part that is not loading (R165). -/
def EventUnit.withEvent (e : EventUnit) (r : EventRecord) (bit : BitVec 6) (vector : BitVec 2) : EventUnit :=
  if e.captureHold then { e with moreEvents := min 255 (e.moreEvents + 1), summary := e.summary ||| bit }
  else { e with record := r, captureHold := true, pending := e.pending ||| (1 <<< vector.toNat) }

/-- The event unit `e` after an event with the given fields, in a running state (R165). -/
def State.eventIn (s : State) (e : EventUnit) (f : EventFields) : EventUnit :=
  e.withEvent
    { cause := some f.cause, window := f.window, station := f.station, address := f.address, sequence := f.sequence,
      time := s.li.lineTime }
    f.cause.eventClass.bit s.lp.params.eventVector

/-- The event unit of a running state after an event with the given fields (R165). -/
def State.eventOf (s : State) (f : EventFields) : EventUnit := s.eventIn s.en f

/-- The state after an update note for window `w` (R84, R171). -/
def State.noted (s : State) (w : WinId) : State :=
  { s with windows := s.windows.set w { s.win w with updated := true, updateCount := min 255 ((s.win w).updateCount + 1) },
           en := if (s.win w).noteOccurs then
               { s.en with pending := s.en.pending ||| (1 <<< (s.win w).desc.notifyVector.toNat) } else s.en }

/-! ### Abandonment and yielding -/

/-- Between `s` and `t` window `w`'s sweep is abandoned (R110): a current one that has not begun is cleared, or flagged while
its BEGIN is on the line; one that has begun is flagged and goes to END_DUE; a waiting one leaves the queue. -/
def State.abandons (s t : State) (w : WinId) : Prop :=
  let beginsOnLine : Prop := ∃ o : OnLine, s.li.tx.onLine = some o ∧ o.source = .sweepBegin w
  (∀ c : Sweep, s.se.current = some c → c.window = w →
    (c.phase = .beginDue → beginsOnLine → t.se = { s.se with current := some { c with abandon := true } }) ∧
    (c.phase = .beginDue → ¬beginsOnLine → t.se = { s.se with current := none }.withQueue s.se.queue) ∧
    (c.phase ≠ .beginDue → t.se = { s.se with current := some { c with abandon := true, phase := .endDue } })) ∧
  ((∀ c : Sweep, s.se.current = some c → c.window ≠ w) →
    t.se = { s.se with queue := s.se.queue.filter fun p => decide (p.1 ≠ w) })

/-- Between `s` and `t` window `w` yields to the owner a frame of station `src` names (R132, R68, R58): its entries, its
sweep and its due GRANT, DENY and TAKEOVERs go, it follows the owner from GAP, with a new delay of one bt at least (log
18), and POSTS_DISCARDED, OWNERSHIP_CONFLICT and the refusal of its waiting local write are recorded in log 14's order. -/
def State.yields (s t : State) (w : WinId) (owner : Station) (g : Byte) (src : Station) : Prop :=
  let gone : List PostEntry := s.pq.entries.filter fun e => decide (e.window = w)
  let discarded : EventUnit := match gone with
    | [] => s.en
    | first :: _ => s.eventIn (s.en.bump .postsDiscarded gone.length)
        { cause := .postsDiscarded, window := some w, sequence := some first.seq }
  let conflict : EventUnit := s.eventIn discarded { cause := .ownershipConflict, window := some w, station := some src }
  let follower : Window := { s.win w with
    ownership := .follower, recordedOwner := owner, generation := g, grantee := none, returned := false,
    markTimer := .stopped, markNow := false, sync := .gap, gapOrigin := some .here, contextWait := false, wait := s.newDelay }
  let left : List PostEntry := s.pq.entries.filter fun e => decide (e.window ≠ w)
  t.win w = { follower with nextSeq := (t.win w).nextSeq } ∧ t.pq.entries = left ∧ s.abandons t w ∧
    t.ownerDue = (s.ownerDue.filter fun x => !x.source.isOwners w) ∧
    ((∀ c : LocalCycle, s.lp.cycle = some c → c.stage.takenFor = none) → s.reservedCtx w = none →
      t = { s with li := { s.li with tx := t.li.tx }, windows := s.windows.set w follower, pq := { s.pq with entries := left },
                   se := t.se, ownerDue := t.ownerDue, en := conflict }) ∧
    ∀ c : LocalCycle, s.lp.cycle = some c → c.stage.takenFor = some w → s.rm.arb.granted ≠ some .localPort →
      t.lp = { s.lp with cycle := some { c with stage := .complete }, wait := false } ∧ t.rm.mem = s.rm.mem ∧
        t.win w = follower ∧
        t.en = s.eventIn conflict { cause := .localWriteRefused, window := some w, station := some owner,
                                    address := some (BitVec.ofNat 16 c.addr) }

/-! ### The end of an attempt -/

/-- The end of a failed attempt of window `w`'s context `i` (R93, R123, R149): the context is free and REFRESH_FAILED is
recorded; the retry count rises, to 3 at most (log 12); below 3 the window goes to GAP with a new delay, at 3 to STALE with
WINDOW_STALE, or it takes over. The events come in log 14's order. -/
def State.attemptFails (s t : State) (w : WinId) (i : Fin 2) (b : Binding) : Prop :=
  let failed : EventFields := { cause := .refreshFailed, window := some w,
                                station := some (b.attempt.elim (s.win w).recordedOwner (·.owner)),
                                sequence := b.attempt.map (·.snapshot) }
  let takesOver : Prop := (s.win w).role = some .share ∧ (s.win w).desc.owner = s.station ∧
    (s.win w).desc.takeoverPermitted = true
  t.ctx i = .free ∧
    ((s.win w).retry < 2 →
      t.win w = { s.win w with retry := (s.win w).retry + 1, sync := .gap, gapOrigin := some .here, contextWait := false,
                               wait := s.newDelay } ∧
      t.en = s.eventOf failed) ∧
    (2 ≤ (s.win w).retry → ¬takesOver →
      t.win w = { (s.win w).stale with retry := 3 } ∧
      t.en = s.eventIn (s.eventOf failed)
        { cause := .windowStale, window := some w, station := some (s.win w).recordedOwner }) ∧
    (2 ≤ (s.win w).retry → takesOver →
      (t.win w).ownership = .owner ∧ (t.win w).recordedOwner = s.station ∧ (t.win w).sync = .gap ∧
      (t.win w).gapOrigin = some .here ∧ (t.win w).nextSeq = 0 ∧ (t.win w).generation = (s.win w).generation + 1 ∧
      (t.win w).retry = 0 ∧ OwnerFrame.takeover w ((s.win w).generation + 1) 0 ∈ t.ownerDue ∧
      t.en = s.eventIn (s.eventOf failed)
        { cause := .ownershipGained, window := some w, station := some (s.win w).recordedOwner, sequence := some 0 })

/-- The end of window `w`'s refresh in context `i` (R122): the context is free, the retry count 0, one update note is given,
and the window is SYNCED after the last applied number; if posts were lost meanwhile or the owner has changed, it goes on to
GAP with a new delay. -/
def State.refreshEnds (s t : State) (w : WinId) (i : Fin 2) (b : Binding) (a : Attempt) : Prop :=
  let lost : Prop := b.overflow = true ∨ b.deferredGap = true ∨ (s.win w).recordedOwner ≠ a.owner
  t.ctx i = .free ∧ (t.win w).expected = some (a.snapshot + 1 + BitVec.ofNat 16 b.deferred.length) ∧
    (t.win w).behind = 0 ∧ (t.win w).retry = 0 ∧ (t.win w).updated = true ∧
    (t.win w).updateCount = min 255 ((s.win w).updateCount + 1) ∧
    (¬lost → (t.win w).sync = .synced ∧ (t.win w).gapOrigin = none ∧ (t.win w).wait = .stopped) ∧
    (lost → (t.win w).sync = .gap ∧ (t.win w).gapOrigin = some .here ∧ (t.win w).wait = s.newDelay)

/-! ### The line -/

/-- The Line Interface after a closing delimiter (R2, R7). -/
def LineInterface.closed (li : LineInterface) : LineInterface :=
  { li with rx := .hunt none, recessiveRun := 0, dominantRun := 1 }

/-- A frame may begin (R12, R17). -/
abbrev State.readyToSend (s : State) : Prop :=
  s.li.line = .online ∧ s.li.tx = .idle ∧ 16 ≤ s.li.recessiveRun ∧ s.li.yield = false

/-- The data bytes of post entries. -/
def postBytes (es : List PostEntry) : Nat := (es.map fun e => e.data.length).sum

/-- The first `n` entries of the queue are those an UPDATE takes (R66): the head, then each that follows while it is of the
head's window, carries no merge hold and leaves the frame at four records and 256 bytes at most; the first that fails ends
the taking. The merge hold stands on the last entry of the queue. -/
def PostQueue.takesFirst (q : PostQueue) (w : WinId) (n : Nat) : Prop :=
  1 ≤ n ∧ n ≤ q.entries.length ∧ n ≤ 4 ∧ (∀ e ∈ q.entries.take n, e.window = w) ∧
    (n = 1 ∨ postBytes (q.entries.take n) ≤ 256) ∧ (q.mergeHold = true → n < q.entries.length) ∧
    ∀ e : PostEntry, q.entries[n]? = some e →
      e.window ≠ w ∨ n = 4 ∨ 256 < postBytes (q.entries.take n) + e.data.length ∨
        (q.mergeHold = true ∧ q.entries.length = n + 1)

/-- What a frame that begins carries, by its source (R66, R71, R88, R105 to R108, R134, R140, R142, R150, R156). A TAKEOVER
carries the values of its takeover (log 35). -/
def State.carries (s : State) (o : OnLine) : Prop :=
  match o.source with
  | .grant w =>
    o.frame.urgency = 0 ∧ o.frame.domain = (s.win w).lineDomain ∧
      o.frame.body = .grant (s.win w).desc.lineBase ((s.win w).generation + 1) (s.win w).nextSeq
        ((s.win w).grantee.getD 0) (s.win w).returned
  | .deny w target =>
    o.frame.urgency = 0 ∧ o.frame.domain = (s.win w).lineDomain ∧ o.frame.body = .deny (s.win w).desc.lineBase target
  | .takeover w =>
    o.frame.urgency = 0 ∧ o.frame.domain = (s.win w).lineDomain ∧
      ∃ (g : Byte) (q : Word), OwnerFrame.takeover w g q ∈ s.ownerDue ∧
        o.frame.body = .takeover (s.win w).desc.lineBase g q
  | .claim w =>
    o.frame.urgency = 0 ∧ o.frame.domain = (s.win w).lineDomain ∧ o.frame.body = .claim (s.win w).desc.lineBase
  | .update w seqs =>
    o.frame.urgency = 1 ∧ o.frame.domain = (s.win w).lineDomain ∧
      ∃ n : Nat, s.pq.takesFirst w n ∧ seqs = (s.pq.entries.take n).map (·.seq) ∧
        o.frame.body = .update (s.win w).desc.lineBase (s.win w).generation
          ((s.pq.entries.take n).map fun e => { seq := e.seq, offset := e.offset, data := e.data })
  | .mark w =>
    o.frame.urgency = 1 ∧ o.frame.domain = (s.win w).lineDomain ∧
      o.frame.body = .mark (s.win w).desc.lineBase (s.win w).generation ((s.win w).nextSeq - 1)
  | .refreshReq w =>
    o.frame.urgency = 2 ∧ o.frame.domain = (s.win w).lineDomain ∧
      o.frame.body = .refreshReq (s.win w).desc.lineBase (s.win w).desc.pageCount
  | .sweepBegin w =>
    o.frame.urgency = 2 ∧ o.frame.domain = (s.win w).lineDomain ∧
      ∃ c : Sweep, s.se.current = some c ∧ c.window = w ∧ c.phase = .beginDue ∧
        o.frame.body = .sweepBegin (s.win w).desc.lineBase (s.win w).generation s.se.idCounter ((s.win w).nextSeq - 1)
          (s.win w).desc.pageCount c.origin
  | .sweepData w =>
    o.frame.urgency = 2 ∧ o.frame.domain = (s.win w).lineDomain ∧ o.pagePending = true ∧
      ∃ c : Sweep, s.se.current = some c ∧ c.window = w ∧ c.phase = .data ∧
        o.frame.body = .sweepData (s.win w).desc.lineBase (c.sweepId.getD 0) (BitVec.ofNat 8 c.nextPage) []
  | .sweepEnd w =>
    o.frame.urgency = 2 ∧ o.frame.domain = (s.win w).lineDomain ∧
      ∃ c : Sweep, s.se.current = some c ∧ c.window = w ∧ c.phase = .endDue ∧
        o.frame.body = .sweepEnd (s.win w).desc.lineBase (c.sweepId.getD 0) (BitVec.ofNat 8 c.nextPage) c.abandon
  | .message =>
    ∃ (m : OutMessage) (rest : List OutMessage), s.mu.outQueue = m :: rest ∧ o.frame.urgency = m.urgency.setWidth 2 ∧
      (s.lp.params.domainSet ≠ 0 → s.lp.params.domainSet.getLsbD o.frame.domain.toNat = true) ∧
      (∀ d : Nat, d < 16 → s.lp.params.domainSet.getLsbD d = true → o.frame.domain.toNat ≤ d) ∧
      o.frame.body = .message m.destination m.urgency m.kind m.subkind m.payload

/-! ### The local port's requests -/

/-- `t` is `s` with the local cycle `c` in progress and its request placed: granted at once while the arbiter is free, and
then without WAIT; else waiting behind the grant in progress, with WAIT asserted (R34, R36). It is of the present bt by the
model's count (log 6). -/
def State.asks (s t : State) (c : LocalCycle) : Prop :=
  t = { s with lp := { s.lp with cycle := some c, wait := t.lp.wait }, rm := { s.rm with arb := t.rm.arb } } ∧
    (s.rm.arb.granted = none → t.rm.arb.granted = some .localPort ∧ t.lp.wait = false) ∧
    (∀ r : Requester, s.rm.arb.granted = some r → r ≠ .localPort →
      t.rm.arb = { s.rm.arb with waiting := s.rm.arb.waiting ++ [{ who := .localPort, placed := s.presentBt }] } ∧
        t.lp.wait = true)

/-! ### What must come before the next bit time -/

/-- The expiry of window `w` that has come (R87, R118, R136). -/
def State.windowRow (s : State) (w : WinId) : Option Instr :=
  let x := s.win w
  if s.follows w ∧ (x.sync = .gap ∨ x.sync = .unsynced) ∧ x.wait = .requestDelay 0 then some (.requestDelayExpiry w)
  else if s.follows w ∧ x.sync = .refreshing ∧ x.wait = .refreshTimeout 0 then some (.refreshTimeoutExpiry w)
  else if x.ownership = .claiming ∧ x.claimTimer = .running 0 then some (.claimTimerExpiry w)
  else none

/-- A held write has waited to the wait limit, counted in bt by the rate code (R63; logs 18 and 26). -/
def State.heldTooLong (s : State) : Prop :=
  ∃ (c : LocalCycle) (w : WinId) (n : Nat), s.lp.cycle = some c ∧ c.stage = .heldWrite w n ∧
    s.lp.params.waitLimit * 2 ^ s.lp.params.rateCode ≤ n

/-- The next bit the part drives lies in a page that has not been read (R37): all the bits before the page are driven, the
opening delimiter's nine and the stuffed ones of the first six bytes. -/
def State.pageNeeded (s : State) : Prop :=
  ∃ o : OnLine, s.li.tx.onLine = some o ∧ o.pagePending = true ∧
    9 + (stuff ((bitsOfBytes o.frame.headerBody).take 48)).length ≤ o.sent

/-- The row that ends the grant in progress, by its requester and what it asked for (R34). -/
def State.grantRow (s : State) : Option Instr :=
  match s.rm.arb.granted with
  | none => none
  | some .sweepReader => some .sweepPageReadGrant
  | some .writer =>
    match s.rh.work with
    | none => none
    | some (.record ..) => some .recordWriteGrant
    | some (.page ..) => some .pageWriteGrant
    | some (.deferred ..) => some .deferredRecordGrant
  | some .localPort =>
    match s.lp.cycle with
    | none => none
    | some c =>
      match c.stage with
      | .read => some .localReadGrant
      | .privateWrite | .allowedWrite _ => some .localWriteGrant
      | .overflowWrite _ => some .overflowWriteGrant
      | .complete | .heldWrite _ _ => none

/-! ### The control area -/

/-- The control words the map of chapter 11 names, each with its offset and its value as it stands (R180). -/
def State.controlMap (s : State) : List (Nat × Word) :=
  let n (x : Nat) : Word := BitVec.ofNat 16 x
  let flag (b : Bool) : Word := (BitVec.ofBool b).setWidth 16
  let p := s.lp.params
  let e := s.en.record
  let a := s.lp.status
  let m := s.mu.staging
  [(0x000, match s.lp.loadResult with
      | .loading => 0
      | .good => 1
      | .badMarker => 2
      | .badLength => 3
      | .badCrc => 4
      | .badStation => 5
      | .noDomain => 6),
   (0x002, p.station.setWidth 16), (0x004, p.domainSet), (0x006, s.lp.defaulted.setWidth 16), (0x008, n p.rateCode),
   (0x00A, n p.backoffFloor), (0x00C, n p.joinInterval), (0x00E, n p.markInterval), (0x010, n p.refreshTimeout),
   (0x012, n p.claimTimeout), (0x014, n p.waitLimit), (0x016, p.eventVector.setWidth 16),
   (0x018, p.messageVector.setWidth 16),
   (0x020, match s.li.line with
      | .offline => 0
      | .configFailed => 1
      | .listen => 2
      | .online => 3
      | .halted => 4
      | .faulted => 5),
   (0x022, s.li.lineTime.setWidth 16), (0x024, s.li.timeCapture.getD ((s.li.lineTime >>> 16).setWidth 16))] ++
  (List.finRange 12).map (fun i => (0x040 + 2 * i.val, s.en.counters[i])) ++
  [(0x058, s.en.sticky.setWidth 16), (0x060, flag s.en.captureHold), (0x062, n s.en.moreEvents),
   (0x064, s.en.summary.setWidth 16), (0x066, match e.cause with
      | none => 0
      | some c => n c.code),
   (0x068, ((BitVec.ofBool e.sequence.isSome ++ BitVec.ofBool e.address.isSome ++ BitVec.ofBool e.station.isSome ++
      BitVec.ofBool e.window.isSome : BitVec 4)).setWidth 16),
   (0x06A, match e.window with
      | none => 0
      | some w => n w.val),
   (0x06C, (e.station.getD 0).setWidth 16), (0x06E, e.address.getD 0), (0x070, e.sequence.getD 0),
   (0x072, e.time.setWidth 16), (0x074, (e.time >>> 16).setWidth 16), (0x080, s.en.pending.setWidth 16),
   (0x082, s.en.mask.setWidth 16), (0x0A0, s.lp.commandWord), (0x0A2, s.lp.args[0]), (0x0A4, s.lp.args[1]),
   (0x0A6, s.lp.args[2]), (0x0A8, s.lp.args[3]), (0x0AA, a.code),
   (0x0AC, match a.result with
      | .none => 0
      | .done => 1
      | .refused => 2),
   (0x0AE, match a.reason with
      | .none => 0
      | .badWindow => 1
      | .wrongRole => 2
      | .wrongState => 3
      | .notSynced => 4
      | .full => 5
      | .empty => 6
      | .badArgument => 7),
   (0x0B0, flag a.probe.found), (0x0B2, n a.probe.window.val), (0x0B4, n a.probe.pageIndex),
   (0x0B6, n a.probe.localPage), (0x0C0, m.destination.setWidth 16), (0x0C2, m.urgency.setWidth 16),
   (0x0C4, m.kind.setWidth 16), (0x0C6, m.subkind.setWidth 16), (0x0C8, m.length.setWidth 16),
   (0x0CA, n s.mu.outQueue.length), (0x100, n s.mu.inFifo.length)] ++
  (List.finRange 16).map (fun i => (0x0D0 + 2 * i.val, m.payload[2 * i.val + 1] ++ m.payload[2 * i.val])) ++
  (match s.mu.inFifo with
    | [] => []
    | h :: _ =>
      [(0x102, h.source.setWidth 16), (0x104, h.destination.setWidth 16), (0x106, h.urgency.setWidth 16),
       (0x108, h.kind.setWidth 16), (0x10A, h.subkind.setWidth 16), (0x10C, n h.payload.length)] ++
      (List.finRange 16).map fun i =>
        (0x110 + 2 * i.val, h.payload.getD (2 * i.val + 1) 0 ++ h.payload.getD (2 * i.val) 0)) ++
  (List.finRange 16).flatMap fun w => (List.finRange 8).map fun i =>
    (0x200 + 16 * w.val + 2 * i.val, match s.lp.capture with
      | some c => if c.window = w ∧ i ≠ 0 then c.words[i] else (s.statusWords w)[i]
      | none => (s.statusWords w)[i])

/-! ### The window status record -/

/-- The sixteen bytes of window `w`'s status record (R51, chapter 11), given its two role bits; bits 7 to 0 of a byte from
left to right. -/
def State.recordBytes (s : State) (w : WinId) (role : BitVec 2) : List Byte :=
  let x := s.win w
  let flag (b : Bool) : BitVec 1 := BitVec.ofBool b
  let result : BitVec 2 := match x.standing with
    | .notLoaded => 0
    | .off => 1
    | .rejected _ => 2
    | .enabled => 3
  let reason : BitVec 4 := match x.standing with
    | .rejected n => BitVec.ofNat 4 n.val
    | .notLoaded | .off | .enabled => 0
  let owner : BitVec 3 := match x.ownership with
    | .owner => 1
    | .granting => 2
    | .follower => 3
    | .claiming => 4
  let sync : BitVec 3 := match x.sync with
    | .unsynced => 1
    | .synced => 2
    | .gap => 3
    | .refreshing => 4
    | .stale => 5
  let gap : BitVec 2 := match x.gapOrigin with
    | none => 0
    | some .here => 1
    | some .already => 2
  let context : BitVec 2 := match s.boundCtx w with
    | none => 0
    | some i => BitVec.ofNat 2 (i.val + 1)
  let expected : Word := x.expected.getD 0
  [reason ++ role ++ result, if x.standing = .notLoaded then 0 else x.desc.pageCount] ++
    (if x.standing = .enabled then
      [(0 : BitVec 5) ++ owner, (0 : BitVec 2) ++ flag x.expected.isSome ++ gap ++ sync, x.recordedOwner, x.generation,
       x.nextSeq.setWidth 8, (x.nextSeq >>> 8).setWidth 8, expected.setWidth 8, (expected >>> 8).setWidth 8,
       (0 : BitVec 1) ++ BitVec.ofNat 2 x.claimAttempts ++ BitVec.ofNat 3 x.behind ++ BitVec.ofNat 2 x.retry,
       (0 : BitVec 1) ++ BitVec.ofNat 5 ((s.bindingOf w).elim 0 fun b => b.deferred.length) ++ context,
       x.grantee.getD 0,
       (0 : BitVec 3) ++ flag x.updated ++ flag x.returned ++ flag x.keep ++ flag x.contextWait ++ flag x.markNow,
       BitVec.ofNat 8 x.updateCount]
    else List.replicate 13 0) ++
    [BitVec.ofNat 8 w.val]

/-! ### The load -/

/-- The local page `p` lies in window `w`'s descriptor. -/
abbrev State.onLocalPage (s : State) (w : WinId) (p : Nat) : Prop :=
  (s.win w).desc.localBase.toNat ≤ p ∧ p < (s.win w).desc.localBase.toNat + (s.win w).pages

/-- The line page `p` of its domain lies in window `w`'s descriptor. -/
abbrev State.onLinePage (s : State) (w : WinId) (p : Nat) : Prop :=
  (s.win w).desc.lineBase.toNat ≤ p ∧ p < (s.win w).desc.lineBase.toNat + (s.win w).pages

/-- Window `w` of a loaded part fails check `n` of R41. -/
def State.failsCheck (s : State) (w : WinId) (n : Nat) : Prop :=
  let d := (s.win w).desc
  match n with
  | 1 => d.pageCount = 0 ∨ 64 < d.pageCount.toNat
  | 2 => 256 < d.localBase.toNat + d.pageCount.toNat
  | 3 => 65536 < d.lineBase.toNat + d.pageCount.toNat
  | 4 => 15 < d.domain.toNat ∨ s.lp.params.domainSet.getLsbD d.domain.toNat = false
  | 5 => d.roleCode = 0 ∨ 3 < d.roleCode.toNat ∨ 2 < d.notifyModeCode.toNat
  | 6 => d.roleCode = 2 ∧ (d.owner = 0 ∨ 31 ≤ d.owner.toNat ∨ d.owner = s.station)
  | 7 => d.roleCode = 3 ∧ (d.owner = 0 ∨ 31 ≤ d.owner.toNat)
  | 8 => ∃ v : WinId, v < w ∧ (s.win v).standing = .enabled ∧ ∃ p : Nat, s.onLocalPage v p ∧ s.onLocalPage w p
  | 9 => ∃ v : WinId, v < w ∧ (s.win v).standing = .enabled ∧ (s.win v).desc.domain = d.domain ∧
      ∃ p : Nat, s.onLinePage v p ∧ s.onLinePage w p
  | _ => False

/-- Window `w` is rejected. -/
def State.isRejected (s : State) (w : WinId) : Bool :=
  match (s.win w).standing with
  | .rejected _ => true
  | .notLoaded | .off | .enabled => false

/-- The state after a load that failed (R185, R186). -/
def State.loadFailed (s : State) (r : LoadResult) : State :=
  { s with lp := { s.lp with spiSelect := false, load := .none, loadResult := r },
           li := { s.li with line := .configFailed } }

/-! ### Invariants of a step -/

/-- The queues and counts of the part stay in their ranges (R2, R15, R26, R77, R93, R134, R154, R160, R164, R171). -/
abbrev CountsBounded (s : State) : Prop :=
  s.rh.slots.length ≤ 3 ∧ s.mu.outQueue.length ≤ 4 ∧ s.mu.inFifo.length ≤ 8 ∧ s.en.moreEvents ≤ 255 ∧
    s.li.faults ≤ 16 ∧ s.li.recessiveRun ≤ 48 ∧ s.li.dominantRun ≤ 32 ∧
    ∀ w : WinId, (s.win w).updateCount ≤ 255 ∧ (s.win w).retry ≤ 3 ∧ (s.win w).behind ≤ 4 ∧ (s.win w).claimAttempts ≤ 3

/-- The post queue, the sweep queue and the deferred lists stay in their room (R59, R100, R120): 32 entries of at most 64
bytes and 2048 bytes in all; 16 entries with no window twice and not the current sweep's; 24 records and 1024 bytes. -/
abbrev ListsBounded (s : State) : Prop :=
  s.pq.entries.length ≤ 32 ∧ postBytes s.pq.entries ≤ 2048 ∧ (∀ e ∈ s.pq.entries, e.data.length ≤ 64) ∧
    s.se.queue.length ≤ 16 ∧ (s.se.queue.map (·.1)).Nodup ∧
    (∀ c ∈ s.se.current, ∀ p ∈ s.se.queue, p.1 ≠ c.window) ∧
    ∀ (i : Fin 2), ∀ b ∈ (s.ctx i).binding,
      b.deferred.length ≤ 24 ∧ (b.deferred.map fun r => r.data.length).sum ≤ 1024

/-- A taken local write is of a window in OWNER (R56, R58), an allowed one keeps the room it was allowed in (R62, R65), and
before the load has ended there are no windows to take a write (R44, R183). -/
abbrev TakenWritesHaveRoom (s : State) : Prop :=
  (∀ c ∈ s.lp.cycle, ∀ w ∈ c.stage.takenFor, (s.win w).ownership = .owner ∧
    (c.stage = .allowedWrite w →
      (s.pq.mergeHold = true ∧
        s.pq.wouldMerge w (s.win w).nextSeq (s.windowOffset w c) c.bytes.length = true ∧
        postBytes s.pq.entries + s.pq.growth (s.windowOffset w c) c.bytes.length ≤ 2048) ∨
      (s.pq.entries.length < 32 ∧ postBytes s.pq.entries + c.bytes.length ≤ 2048))) ∧
    (s.lp.inReset = true → s.lp.load = .none) ∧
    (s.lp.inReset = true ∨ s.lp.load ≠ .none →
      s.maps.localMap = [] ∧ ∀ c ∈ s.lp.cycle, c.stage.takenFor = none)

/-- An OWN window is OWNER and a FOLLOW window is FOLLOWER (R40, R126). -/
abbrev RolesHold (s : State) : Prop :=
  ∀ w : WinId, ((s.win w).role = some .own → (s.win w).ownership = .owner) ∧
    ((s.win w).role = some .follow → (s.win w).ownership = .follower)

/-- Until the load has ended every window is NOT_LOADED (R49, R51), and no load is in progress while the part is held in
reset (R183). -/
abbrev UnloadedUntilLoad (s : State) : Prop :=
  (s.lp.inReset = true → s.lp.load = .none) ∧
    ((s.lp.inReset = true ∨ s.lp.load ≠ .none) → ∀ w : WinId, (s.win w).standing = .notLoaded)

/-! ### Frames -/

/-- A record that an UPDATE can carry (R193). -/
def PostRecord.legal (r : PostRecord) : Prop := 1 ≤ r.data.length ∧ r.data.length ≤ 64 ∧ r.offset.toNat ≤ 16383

/-- The fields of a body are legal (R193). -/
def Body.legal (urgency : BitVec 2) : Body → Prop
  | .update _ _ rs => 1 ≤ rs.length ∧ rs.length ≤ 4 ∧ ∀ r ∈ rs, r.legal
  | .mark .. | .claim _ | .takeover .. => True
  | .refreshReq _ n => 1 ≤ n.toNat ∧ n.toNat ≤ 64
  | .sweepBegin _ _ _ _ n _ => 1 ≤ n.toNat ∧ n.toNat ≤ 64
  | .sweepData _ _ p d => p.toNat ≤ 63 ∧ d.length = 256
  | .sweepEnd _ _ n _ => n.toNat ≤ 64
  | .grant _ _ _ t _ => 1 ≤ t.toNat ∧ t.toNat ≤ 30
  | .deny _ t => 1 ≤ t.toNat ∧ t.toNat ≤ 30
  | .message d u _ _ p => 1 ≤ d.toNat ∧ d.toNat ≤ 31 ∧ u.toNat = urgency.toNat ∧ p.length ≤ 32

/-- The urgency a kind requires (R9). -/
def Body.urgencyLegal (urgency : BitVec 2) : Body → Prop
  | .update .. | .mark .. => urgency = 1
  | .refreshReq .. | .sweepBegin .. | .sweepData .. | .sweepEnd .. => urgency = 2
  | .claim .. | .grant .. | .deny .. | .takeover .. => urgency = 0
  | .message .. => urgency ≠ 0

/-- A frame a station can put on the line (R7, R9, R193). -/
def Frame.legal (f : Frame) : Prop :=
  1 ≤ f.source.toNat ∧ f.source.toNat ≤ 30 ∧ f.body.urgencyLegal f.urgency ∧ f.body.legal f.urgency

end Sys2Proof.Machine
end

