-- ==== Sys2Proof/Certificates/Slice0/Obligations.lean ====
section
/-!
DEFINITION. The statements for the provers. Each rests on the rules its docstring names; a clause that rests on a choice
of the model names its log entry.
-/

open Sys2Proof Sys2Proof.Machine

/-! ### Steps -/

/-- A step takes the command at the front of the queue and runs it on the state with the queue's rest. -/
def Obligations.StepRunsFrontCommand : Prop :=
  ∀ (c : Instr) (rest : List Instr) (s : State),
    step { s with pending := c :: rest } = exec c { s with pending := rest }

/-- Log 2: on an empty queue nothing happens while the line side does not run; else a row that must come first is put on
the queue; when there is none, one bt passes: the line time counter (R25), the backoff counter (R24) and the run counts
(R2) count, every timer counts, the recovery timer in an idle bt only (R21, log 31), the transmitter goes on by one bit
(R1), the receiver takes the bit (R5, R6), a held write waits on (R62, log 26), and the rows the line brings about in
the bt are put on the queue. The count of bt is the model's own (log 6). What must come first is, in log 4's order: the
expiry of the join timer in LISTEN, of the recovery timer in FAULTED, of a window's delay, refresh timeout or claim timer,
window by window, of a held write's wait (logs 18 and 26); then a frame that can begin, which begins in the bt (R12); then
the end of the grant in progress, while the next bit waits for a page (R37). -/
def Obligations.EmptyQueuePassesOneBit : Prop :=
  (∀ s : State,
    let windows : Option Instr := allWindows.findSome? s.windowRow
    (s.li.line = .listen ∧ s.li.joinTimer = .running 0 → s.beforeBt = some .joinTimerExpiry) ∧
    (s.li.line = .faulted ∧ s.li.recoveryTimer = .running 0 → s.beforeBt = some .recoveryTimerExpiry) ∧
    (¬(s.li.line = .listen ∧ s.li.joinTimer = .running 0) → ¬(s.li.line = .faulted ∧ s.li.recoveryTimer = .running 0) →
      (∀ i : Instr, windows = some i → s.beforeBt = some i) ∧
      (windows = none →
        (s.heldTooLong → s.beforeBt = some .postWaitExpiry) ∧
        (¬s.heldTooLong →
          (s.readyToSend → s.nextFrame ≠ none → s.beforeBt = some .transmitStart) ∧
          (¬s.readyToSend ∨ s.nextFrame = none →
            (s.pageNeeded → s.beforeBt = s.grantRow) ∧ (¬s.pageNeeded → s.beforeBt = none)))))) ∧
  (∀ s : State, s.pending = [] → s.lp.inReset = true ∨ ¬s.li.line.runs → step s = .next s) ∧
  (∀ (s : State) (i : Instr), s.pending = [] → s.lp.inReset = false → s.li.line.runs → s.beforeBt = some i →
    step s = .next { s with pending := [i] }) ∧
  ∀ s : State, s.pending = [] → s.lp.inReset = false → s.li.line.runs → s.beforeBt = none →
    ∃ t : State, step s = .next t ∧
      t.li.lineTime = s.li.lineTime + 1 ∧
      t.li.backoff = (if s.li.backoff.toNat = s.lp.params.backoffFloor then 63 else s.li.backoff - 1) ∧
      (s.sample = recessive → t.li.recessiveRun = min 48 (s.li.recessiveRun + 1) ∧ t.li.dominantRun = 0) ∧
      (s.sample = dominant → t.li.dominantRun = min 32 (s.li.dominantRun + 1) ∧ t.li.recessiveRun = 0) ∧
      (∀ w : WinId, t.win w = { s.win w with markTimer := (s.win w).markTimer.tick, wait := (s.win w).wait.tick,
                                             claimTimer := (s.win w).claimTimer.tick }) ∧
      (s.li.tx = .idle → t.li.tx = .idle) ∧
      (∀ f : OnLine, s.li.tx = .arbitrate f → t.li.tx = .arbitrate { f with sent := f.sent + 1 }) ∧
      (∀ f : OnLine, s.li.tx = .send f → t.li.tx = .send { f with sent := f.sent + 1 }) ∧
      (∀ bits : List Bit, s.li.rx = .frame bits → t.li.rx = .frame (bits ++ [s.sample])) ∧
      (s.li.rx = .hunt none →
        t.li.rx = if s.sample = dominant ∧ 16 ≤ s.li.recessiveRun then .hunt (some 0) else .hunt none) ∧
      (∀ n : Nat, s.li.rx = .hunt (some n) →
        t.li.rx = if s.sample = recessive ∧ n < 7 then .hunt (some (n + 1)) else .hunt none) ∧
      t.li.recoveryTimer = (if 16 ≤ t.li.recessiveRun then s.li.recoveryTimer.tick else s.li.recoveryTimer) ∧
      (∀ (c : LocalCycle) (w : WinId) (n : Nat), s.lp.cycle = some c → c.stage = .heldWrite w n →
        t.lp.cycle = some { c with stage := .heldWrite w (n + 1) }) ∧
      ((∀ (c : LocalCycle) (w : WinId) (n : Nat), s.lp.cycle = some c → c.stage ≠ .heldWrite w n) →
        t.lp.cycle = s.lp.cycle) ∧
      t = { s with li := t.li, windows := t.windows, lp := { s.lp with cycle := t.lp.cycle }, pending := s.tickEvents } ∧
      t.li = { s.li with tx := t.li.tx, rx := t.li.rx, recessiveRun := t.li.recessiveRun,
                         dominantRun := t.li.dominantRun, joinTimer := s.li.joinTimer.tick,
                         recoveryTimer := t.li.recoveryTimer, backoff := t.li.backoff, lineTime := t.li.lineTime,
                         btCount := s.li.btCount + 1, lrx := s.li.lrx.tail }

/-- The rows that one bt brings about. At the transmitter, by the bit driven, the bt's sample and the place of the bit
among the raw bits that carry the arbitration field, which are the seven behind the opening delimiter and a stuff bit
among them when the first six are equal (R14 to R16). At the receiver, by the raw bits since the opening delimiter (R5,
R6, log 8), not while the part drives the frame and has not lost it (R7). The run counts at 32, 16 and 48 (R2, R11,
R17). -/
def Obligations.LinePatternsAreFound : Prop :=
  (∀ s : State, s.li.tx = .idle → ∀ i ∈ s.tickEvents,
    i ≠ .arbitrationWon ∧ i ≠ .arbitrationLost ∧ i ≠ .transmitFault ∧ i ≠ .frameCompleted) ∧
  (∀ (s : State) (f : OnLine) (driven : Bit), s.li.tx = .arbitrate f → f.pagePending = false →
    (wireOf f.frame.content)[f.sent]? = some driven →
    let field := bitsOfBytes f.frame.headerBody
    let last : Nat := if ∀ k : Nat, k < 6 → field.getD k recessive = field.getD 0 recessive then 16 else 15
    (Instr.arbitrationWon ∈ s.tickEvents ↔ driven = s.sample ∧ f.sent = last) ∧
    (Instr.arbitrationLost ∈ s.tickEvents ↔
      driven = recessive ∧ s.sample = dominant ∧ 9 ≤ f.sent ∧ f.sent ≤ last) ∧
    (Instr.transmitFault ∈ s.tickEvents ↔
      driven ≠ s.sample ∧ ¬(driven = recessive ∧ 9 ≤ f.sent ∧ f.sent ≤ last)) ∧
    Instr.frameCompleted ∉ s.tickEvents) ∧
  (∀ (s : State) (f : OnLine) (driven : Bit), s.li.tx = .send f → f.pagePending = false →
    (wireOf f.frame.content)[f.sent]? = some driven →
    (Instr.transmitFault ∈ s.tickEvents ↔ driven ≠ s.sample) ∧
    (Instr.frameCompleted ∈ s.tickEvents ↔ driven = s.sample ∧ f.sent + 1 = (wireOf f.frame.content).length) ∧
    Instr.arbitrationWon ∉ s.tickEvents ∧ Instr.arbitrationLost ∉ s.tickEvents) ∧
  (∀ s : State, Instr.openingDelimiter ∈ s.tickEvents ↔ s.li.rx = .hunt (some 7) ∧ s.sample = dominant) ∧
  (∀ (s : State) (bits : List Bit), s.li.rx = .frame bits → s.len = false →
    let raw := bits ++ [s.sample]
    (∀ front : List Bit, raw = front ++ List.replicate 7 dominant → front.getLast? ≠ some dominant →
      Instr.stuffViolation .sevenDominant ∈ s.tickEvents) ∧
    (∀ front : List Bit, raw = front ++ List.replicate 8 recessive → front.getLast? ≠ some recessive →
      Instr.abort ∈ s.tickEvents) ∧
    (∀ content : List Bit, raw = content ++ delimiter →
      (destuff content = none → Instr.stuffViolation .missingAtClosing ∈ s.tickEvents) ∧
      (destuff content ≠ none → Instr.frameReceived content ∈ s.tickEvents)) ∧
    (Instr.stuffViolation .sevenDominant ∈ s.tickEvents → ∃ front : List Bit, raw = front ++ List.replicate 7 dominant) ∧
    (Instr.abort ∈ s.tickEvents → ∃ front : List Bit, raw = front ++ List.replicate 8 recessive) ∧
    (∀ content : List Bit, Instr.frameReceived content ∈ s.tickEvents →
      raw = content ++ delimiter ∨ (content = [] ∧ raw = List.replicate 7 recessive ++ [dominant]))) ∧
  (∀ (s : State) (f : OnLine) (bits : List Bit), s.li.rx = .frame bits → s.li.tx = .send f → ∀ i ∈ s.tickEvents,
    (∀ c : StuffCause, i ≠ .stuffViolation c) ∧ i ≠ .abort ∧ ∀ content : List Bit, i ≠ .frameReceived content) ∧
  ∀ s : State, s.li.recessiveRun ≤ 48 → s.li.dominantRun ≤ 32 →
    (Instr.lineStuck ∈ s.tickEvents ↔ s.sample = dominant ∧ s.li.dominantRun = 31) ∧
    (Instr.lineIdle ∈ s.tickEvents ↔ s.sample = recessive ∧ s.li.recessiveRun = 15) ∧
    (Instr.yieldIntervalExpiry ∈ s.tickEvents ↔ s.sample = recessive ∧ s.li.recessiveRun = 47)

/-- Every command answers a next state and leaves the queue of commands that wait as it is. -/
def Obligations.EveryCommandAnswersNext : Prop :=
  ∀ (c : Instr) (s : State), ∃ t : State, exec c s = .next t ∧ t.pending = s.pending

/-! ### Power and the configuration load -/

/-- POWER_ON and RESET hold every piece of state at its initial value (R183); the queue of commands and the levels the
line will carry are outside the part (log 25). RESET_RELEASE begins the load: chip select asserted, read command and
address sent (R184). What the manual gives for power-on and RESET, block by block (R1, R2, R11, R12, R15, R17 to
R19, R21, R24 to R26, R32, R34, R35, R44, R49, R59, R74, R77, R100, R104, R106, R113, R154, R158, R160, R162, R164,
R169, R173, R175, R176, R180 to R184). That nothing waits on the queue is log 17's, and that the receiver is in HUNT
before LISTEN log 37's. -/
def Obligations.PowerOnAndResetGiveInitialValues : Prop :=
  (∀ s : State,
    exec .powerOn s =
      .next { State.reset with pending := s.pending, li := { State.reset.li with lrx := s.li.lrx } } ∧
    exec .reset s = .next { State.reset with pending := s.pending, li := { State.reset.li with lrx := s.li.lrx } } ∧
    (s.lp.inReset = true →
      exec .resetRelease s =
        .next { s with lp := { s.lp with inReset := false, spiSelect := true, spiSent := [0x03, 0, 0, 0],
                                         load := .header } })) ∧
  let s := State.reset
  s.pending = [] ∧
    (s.li.line = .offline ∧ s.len = false ∧ s.ltx = recessive ∧ s.li.tx = .idle ∧ s.li.rx = .hunt none ∧
      s.li.recessiveRun = 0 ∧ s.li.dominantRun = 0 ∧ s.li.stuck = false ∧ s.li.yield = false ∧ s.li.faults = 0 ∧
      s.li.recoveredOnce = false ∧ s.li.onlineSeen = false ∧ s.li.joinTimer = .stopped ∧
      s.li.recoveryTimer = .stopped ∧ s.li.backoff = 63 ∧ s.li.lineTime = 0 ∧ s.li.timeCapture = none) ∧
    (s.rh.slots = [] ∧ s.rh.work = none ∧ (∀ a : Nat, Memory.read s.rm.mem a = 0) ∧ s.rm.arb.turn = .localSide ∧
      s.rm.arb.granted = none ∧ s.rm.arb.waiting = []) ∧
    (s.maps.localMap = [] ∧ s.maps.lineMap = [] ∧
      ∀ w : WinId, (s.win w).standing = .notLoaded ∧ (s.win w).generation = 0 ∧ (s.win w).nextSeq = 0 ∧
        (s.win w).markTimer = .stopped ∧ (s.win w).markNow = false ∧ (s.win w).sync = .unsynced ∧
        (s.win w).expected = none ∧ (s.win w).gapOrigin = none ∧ (s.win w).retry = 0 ∧ (s.win w).behind = 0 ∧
        (s.win w).wait = .stopped ∧ (s.win w).contextWait = false ∧ (s.win w).keep = false ∧
        (s.win w).claimAttempts = 0 ∧ (s.win w).claimTimer = .stopped ∧ (s.win w).grantee = none ∧
        (s.win w).returned = false ∧ (s.win w).updated = false ∧ (s.win w).updateCount = 0) ∧
    (s.pq.entries = [] ∧ s.pq.mergeHold = false ∧ (∀ i : Fin 2, s.ctx i = .free) ∧ s.se.queue = [] ∧
      s.se.current = none ∧ s.se.idCounter = 0 ∧ s.ownerDue = []) ∧
    (s.mu.outQueue = [] ∧ s.mu.inFifo = [] ∧ (∀ i : Fin 6, s.mu.filters[i].enable = false) ∧
      s.mu.staging = { destination := 0, urgency := 0, kind := 0, subkind := 0, length := 0,
                       payload := Vector.replicate 32 0 }) ∧
    (s.en.record = { cause := none, window := none, station := none, address := none, sequence := none, time := 0 } ∧
      s.en.captureHold = false ∧ s.en.moreEvents = 0 ∧ s.en.summary = 0 ∧ s.en.heldOccurrence = false ∧
      s.en.counters = Vector.replicate 12 0 ∧ s.en.sticky = 0 ∧ s.en.pending = 0 ∧ s.en.mask = 0xF ∧ s.en.notify = 0) ∧
    s.lp.inReset = true ∧ s.lp.spiSelect = false ∧ s.lp.load = .none ∧ s.lp.loadResult = .loading ∧
    s.lp.params = { station := 0, domainSet := 0, rateCode := 0, backoffFloor := 0, joinInterval := 0, markInterval := 0,
                    refreshTimeout := 0, claimTimeout := 0, waitLimit := 0, eventVector := 0, messageVector := 0 } ∧
    s.lp.defaulted = 0 ∧ s.lp.commandWord = 0 ∧ s.lp.args = Vector.replicate 4 0 ∧
    s.lp.status = { code := 0, result := .none, reason := .none,
                    probe := { found := false, window := 0, pageIndex := 0, localPage := 0 } } ∧
    s.lp.cycle = none ∧ s.lp.wait = false ∧ s.lp.dataOut = { low := none, high := none } ∧ s.lp.capture = none

/-- R185: the integrity checks of the image, in their order, by CONFIG_HEADER_READ and CONFIG_IMAGE_READ. The first that
fails ends the load in CONFIG_FAILED with its load result and changes nothing else; an image that passes all five is
taken. -/
def Obligations.ImageIntegrityChecks : Prop :=
  (∀ (s : State) (marker length : Word), s.lp.load = .header →
    exec (.configHeaderRead marker length) s =
      .next (if marker ≠ 0x5A3C then s.loadFailed .badMarker
             else if length ≠ 230 then s.loadFailed .badLength
             else { s with lp := { s.lp with load := .image } })) ∧
  ∀ (s : State) (rest : List Byte), s.lp.load = .image → rest.length = 226 →
    if crc ([0x5A, 0x3C, 0, 230] ++ rest.take 224) ≠ rest.getD 224 0 ++ rest.getD 225 0 then
      exec (.configImageRead rest) s = .next (s.loadFailed .badCrc)
    else if rest.getD 0 0 = 0 ∨ 31 ≤ (rest.getD 0 0).toNat then
      exec (.configImageRead rest) s = .next (s.loadFailed .badStation)
    else if rest.getD 1 0 = 0 ∧ rest.getD 2 0 = 0 then
      exec (.configImageRead rest) s = .next (s.loadFailed .noDomain)
    else ∃ t : State, exec (.configImageRead rest) s = .next t ∧ t.lp.loadResult = .good ∧ t.li.line = .listen

/-- A good load: the station parameters, each replaced by its default when out of range, with the defaulted set (R187),
the filters (R158), the windows' descriptors and run-time values by role (R39, R49, log 34), the maps (R44), and LISTEN
with its join timer (R19, R188). -/
def Obligations.GoodLoadTakesTheImage : Prop :=
  ∀ (s : State) (rest : List Byte), s.lp.load = .image → rest.length = 226 → imageFault (wholeImage rest) = none →
    ∃ t : State, exec (.configImageRead rest) s = .next t ∧
      t.lp = { s.lp with spiSelect := false, load := .none, loadResult := .good, params := t.lp.params,
                         defaulted := t.lp.defaulted } ∧
      t.lp.params.station = rest.getD 0 0 ∧ t.lp.params.domainSet = rest.getD 1 0 ++ rest.getD 2 0 ∧
      t.lp.params.rateCode = (if (rest.getD 3 0).toNat ≤ 3 then (rest.getD 3 0).toNat else 0) ∧
      t.lp.params.backoffFloor = (if (rest.getD 4 0).toNat ≤ 31 then (rest.getD 4 0).toNat else 8) ∧
      t.lp.params.joinInterval = (if 1 ≤ (rest.getD 5 0).toNat then (rest.getD 5 0).toNat else 8) ∧
      t.lp.params.markInterval = (if rest.getD 6 0 = 0 then (rest.getD 7 0).toNat else 16) ∧
      t.lp.params.refreshTimeout = (if 1 ≤ (rest.getD 8 0).toNat then (rest.getD 8 0).toNat else 32) ∧
      t.lp.params.claimTimeout = (if 1 ≤ (rest.getD 9 0).toNat then (rest.getD 9 0).toNat else 16) ∧
      t.lp.params.waitLimit = (if rest.getD 10 0 = 0 then (rest.getD 11 0).toNat else 50) ∧
      t.lp.params.eventVector.toNat = (if (rest.getD 12 0).toNat ≤ 3 then (rest.getD 12 0).toNat else 0) ∧
      t.lp.params.messageVector.toNat = (if (rest.getD 13 0).toNat ≤ 3 then (rest.getD 13 0).toNat else 1) ∧
      t.li = { s.li with line := .listen, rx := .hunt none, joinTimer := .running (t.lp.params.joinInterval * 1024) } ∧
      (∀ i : Fin 6, t.mu.filters[i] =
        { enable := decide (rest.getD (206 + 3 * i.val) 0 = 1), kind := rest.getD (207 + 3 * i.val) 0,
          subkind := rest.getD (208 + 3 * i.val) 0 }) ∧
      t.mu = { s.mu with filters := t.mu.filters } ∧
      (∀ k : Fin 9, t.lp.defaulted.getLsbD k.val =
        [decide (3 < (rest.getD 3 0).toNat), decide (31 < (rest.getD 4 0).toNat), decide (rest.getD 5 0 = 0),
         decide (rest.getD 6 0 ≠ 0), decide (rest.getD 8 0 = 0), decide (rest.getD 9 0 = 0), decide (rest.getD 10 0 ≠ 0),
         decide (3 < (rest.getD 12 0).toNat), decide (3 < (rest.getD 13 0).toNat)].getD k.val false) ∧
      (t.lp.defaulted.getLsbD 9 = true ↔ ∃ i : Fin 6, 1 < (rest.getD (206 + 3 * i.val) 0).toNat) ∧
      t.maps = t.buildMaps.maps ∧
      (∀ w : WinId,
        let byte (i : Nat) : Byte := rest.getD (14 + 12 * w.val + i) 0
        t.win w = { s.win w with desc := { enable := (byte 0).getLsbD 0, roleCode := byte 1, domain := byte 2,
                                           lineBase := byte 3 ++ byte 4, pageCount := byte 5, localBase := byte 6,
                                           owner := byte 7, notifyVector := (byte 8).setWidth 2,
                                           notifyModeCode := byte 9, autoClaim := (byte 10).getLsbD 0,
                                           takeoverPermitted := (byte 11).getLsbD 0 },
                                 standing := (t.win w).standing, ownership := (t.win w).ownership,
                                 recordedOwner := (t.win w).recordedOwner } ∧
        ((t.win w).role = some .own → (t.win w).ownership = .owner ∧ (t.win w).recordedOwner = t.lp.params.station) ∧
        ((t.win w).role ≠ some .own →
          (t.win w).ownership = .follower ∧ (t.win w).recordedOwner = (t.win w).desc.owner) ∧
        ((t.win w).desc.enable = false ↔ (t.win w).standing = .off)) ∧
      t.en.counters = s.en.counters ∧ t.en.sticky = s.en.sticky ∧ t.en.mask = s.en.mask ∧
      t = { s with li := t.li, windows := t.windows, maps := t.maps, mu := t.mu, en := t.en, lp := t.lp }

/-- The events of a good load (R42, R168, R187, R188) into a clear capture: CONFIG_DEFAULTED for every defaulted
parameter, then CONFIG_WINDOW for every rejected window in window order, then CONFIG_DEFAULTED for every defaulted
filter. The first is kept, each later one is counted, and one occurrence is given on the event vector at the end. -/
def Obligations.LoadRecordsItsEvents : Prop :=
  ∀ (s : State) (rest : List Byte), s.lp.load = .image → rest.length = 226 → imageFault (wholeImage rest) = none →
    s.li.line = .offline → s.en.captureHold = false → s.en.heldOccurrence = false →
    ∃ t : State, exec (.configImageRead rest) s = .next t ∧
      let params := (List.range 9).filter fun k => t.lp.defaulted.getLsbD k
      let rejected := allWindows.filter t.isRejected
      let filters := (List.range 6).filter fun i => decide (1 < (rest.getD (206 + 3 * i) 0).toNat)
      let n := params.length + rejected.length + filters.length
      let first : EventRecord :=
        { cause := if params = [] ∧ rejected ≠ [] then some .configWindow else some .configDefaulted,
          window := if params = [] then rejected.head? else none, station := none, address := none, sequence := none,
          time := s.li.lineTime }
      t.en = if n = 0 then s.en
        else { s.en with record := first, captureHold := true,
                         moreEvents := if n = 1 then s.en.moreEvents else min 255 (s.en.moreEvents + (n - 1)),
                         summary := if n = 1 then s.en.summary else s.en.summary ||| 1,
                         pending := s.en.pending ||| (1 <<< t.lp.params.eventVector.toNat) }

/-- After a good load a window whose descriptor has enable 1 is rejected with the number of the first check of R41 that
it fails, and enabled when it fails none. Every enabled window has passed the checks, and no two share a local page, or
a line page of one domain (R43). -/
def Obligations.EnabledWindowsStandApart : Prop :=
  ∀ (s : State) (rest : List Byte), s.lp.load = .image → rest.length = 226 → imageFault (wholeImage rest) = none →
    (∀ w : WinId, (s.win w).standing = .notLoaded) →
    ∃ t : State, exec (.configImageRead rest) s = .next t ∧
      (∀ w : WinId, (t.win w).desc.enable = true →
        (∀ n : Fin 10, (t.win w).standing = .rejected n ↔
          1 ≤ n.val ∧ t.failsCheck w n.val ∧ ∀ m : Nat, 1 ≤ m → m < n.val → ¬t.failsCheck w m) ∧
        ((t.win w).standing = .enabled ↔ ∀ m : Nat, 1 ≤ m → ¬t.failsCheck w m)) ∧
      (∀ w : WinId, (t.win w).standing = .enabled →
        1 ≤ (t.win w).pages ∧ (t.win w).pages ≤ 64 ∧ (t.win w).desc.localBase.toNat + (t.win w).pages ≤ 256 ∧
        (t.win w).desc.lineBase.toNat + (t.win w).pages ≤ 65536 ∧
        t.lp.params.domainSet.getLsbD (t.win w).desc.domain.toNat = true ∧ (t.win w).desc.domain.toNat ≤ 15 ∧
        (t.win w).role ≠ none ∧ (t.win w).desc.notifyModeCode.toNat ≤ 2 ∧
        ((t.win w).role = some .follow →
          1 ≤ (t.win w).desc.owner.toNat ∧ (t.win w).desc.owner.toNat ≤ 30 ∧ (t.win w).desc.owner ≠ t.station) ∧
        ((t.win w).role = some .share → 1 ≤ (t.win w).desc.owner.toNat ∧ (t.win w).desc.owner.toNat ≤ 30)) ∧
      ∀ v w : WinId, v ≠ w → (t.win v).standing = .enabled → (t.win w).standing = .enabled →
        (∀ p : Nat, ¬((t.win v).desc.localBase.toNat ≤ p ∧ p < (t.win v).desc.localBase.toNat + (t.win v).pages ∧
          (t.win w).desc.localBase.toNat ≤ p ∧ p < (t.win w).desc.localBase.toNat + (t.win w).pages)) ∧
        ((t.win v).desc.domain = (t.win w).desc.domain → ∀ p : Nat,
          ¬((t.win v).desc.lineBase.toNat ≤ p ∧ p < (t.win v).desc.lineBase.toNat + (t.win v).pages ∧
            (t.win w).desc.lineBase.toNat ≤ p ∧ p < (t.win w).desc.lineBase.toNat + (t.win w).pages))

/-- The maps the load builds (R44) and their lookups: the exact lookup (R45) and the local page lookup (R46) find an
enabled window with the given domain and base page, or holding the given page, and find one whenever there is one. PROBE,
on these maps, finds the first window in window order that is enabled in the domain and whose line pages, its page count
of them from its line base, hold the given page, and none when there is none (R47). -/
def Obligations.LookupsFindEnabledWindows : Prop :=
  (∀ s : State, s.idlePort → s.lp.args[0].toNat ≤ 15 →
    let page : Nat := s.lp.args[1].toNat
    let holds (v : WinId) : Prop := (s.win v).standing = .enabled ∧
      (s.win v).desc.domain.toNat = s.lp.args[0].toNat ∧ s.onLinePage v page
    (∀ w : WinId, holds w → (∀ v : WinId, v < w → ¬holds v) →
      exec .probe s.buildMaps =
        .next { s.buildMaps with lp := (s.lp.answered 0x0008 .done .none
          { found := true, window := w, pageIndex := page - (s.win w).desc.lineBase.toNat,
            localPage := (s.win w).desc.localBase.toNat + (page - (s.win w).desc.lineBase.toNat) } : LocalPort) }) ∧
    ((∀ v : WinId, ¬holds v) → exec .probe s.buildMaps = .next (s.buildMaps.answersDone 0x0008))) ∧
  ∀ s : State,
    (∀ (d : BitVec 4) (b : Word) (w : WinId), s.buildMaps.maps.exact d b = some w →
      (s.win w).standing = .enabled ∧ (s.win w).desc.domain.toNat = d.toNat ∧ (s.win w).desc.lineBase = b) ∧
    (∀ (d : BitVec 4) (b : Word) (w : WinId), (s.win w).standing = .enabled → (s.win w).desc.domain.toNat = d.toNat →
      (s.win w).desc.lineBase = b → s.buildMaps.maps.exact d b ≠ none) ∧
    (∀ (p : Nat) (w : WinId), s.buildMaps.maps.ofLocalPage p = some w →
      (s.win w).standing = .enabled ∧ (s.win w).desc.localBase.toNat ≤ p ∧
        p < (s.win w).desc.localBase.toNat + (s.win w).pages) ∧
    ∀ (p : Nat) (w : WinId), (s.win w).standing = .enabled → (s.win w).desc.localBase.toNat ≤ p →
      p < (s.win w).desc.localBase.toNat + (s.win w).pages → s.buildMaps.maps.ofLocalPage p ≠ none

/-! ### The receiver and the line -/

/-- The rows of the line but FRAME_RECEIVED, while the line side runs. OPENING_DELIMITER enters FRAME, and another
station's frame clears the yield flag (R5, R17). STUFF_VIOLATION and ABORT in FRAME return to HUNT and are counted,
unless the part drives the frame itself (R6, R7). LINE_STUCK is recorded once an episode, the idle line clears the stuck
flag, the yield interval clears the yield flag (R2, R11, R17). The run counts stand where the pattern leaves them (R2,
log 19). -/
def Obligations.LineRowsAct : Prop :=
  (∀ (s : State) (c : Option Nat), s.li.line.runs → s.li.rx = .hunt c →
    exec .openingDelimiter s =
      .next { s with li := { s.li with rx := .frame [], recessiveRun := 0, dominantRun := 1,
                                       yield := s.li.yield && s.len } }) ∧
  (∀ (s : State) (bits : List Bit), s.li.line.runs → s.li.rx = .frame bits →
    exec (.stuffViolation .sevenDominant) s =
      .next { s with li := { s.li with rx := .hunt none, recessiveRun := 0, dominantRun := max 7 s.li.dominantRun },
                     en := if s.len then s.en else s.en.bump .stuffErrors 1 } ∧
    exec (.stuffViolation .missingAtClosing) s =
      .next { s with li := s.li.closed, en := if s.len then s.en else s.en.bump .stuffErrors 1 } ∧
    exec .abort s =
      .next { s with li := { s.li with rx := .hunt none, recessiveRun := max 8 s.li.recessiveRun, dominantRun := 0 },
                     en := if s.len then s.en else s.en.bump .aborts 1 }) ∧
  ∀ s : State, s.li.line.runs →
    exec .lineStuck s =
      .next { s with li := { s.li with recessiveRun := 0, dominantRun := 32, stuck := true },
                     en := if s.li.stuck then s.en else s.eventOf { cause := .lineStuck } } ∧
    exec .lineIdle s =
      .next { s with li := { s.li with recessiveRun := max 16 s.li.recessiveRun, dominantRun := 0, stuck := false } } ∧
    exec .yieldIntervalExpiry s =
      .next { s with li := { s.li with recessiveRun := 48, dominantRun := 0, stuck := false, yield := false } }

/-- FRAME_RECEIVED with content that fails a check: the counter of the first failing check is incremented and nothing
else changes but the receiver and the run counts, which stand where a closing delimiter leaves them (R7, log 19); a
frame the part drives is neither counted nor delivered. Stuff bits come off as log 7 has it. -/
def Obligations.BadContentIsCounted : Prop :=
  ∀ (s : State) (bits stuffed : List Bit), s.li.line.runs → s.li.rx = .frame bits → stuffedContentOk stuffed = true →
    (s.len = true → exec (.frameReceived stuffed) s = .next { s with li := s.li.closed }) ∧
    (s.len = false →
      (destuff stuffed = none →
        exec (.frameReceived stuffed) s = .next { s with li := s.li.closed, en := s.en.bump .stuffErrors 1 }) ∧
      ∀ content : List Bit, destuff stuffed = some content →
        (judgeContent content = .malformed →
          exec (.frameReceived stuffed) s = .next { s with li := s.li.closed, en := s.en.bump .malformed 1 }) ∧
        (judgeContent content = .crcError →
          exec (.frameReceived stuffed) s = .next { s with li := s.li.closed, en := s.en.bump .crcErrors 1 }) ∧
        (judgeContent content = .unknownKind →
          exec (.frameReceived stuffed) s = .next { s with li := s.li.closed, en := s.en.bump .unknownKind 1 }))

/-- The four checks of R7 in their order: whole bytes, 4 to 284; the CRC; the kind code, header bits 8 to 4; urgency,
source, body length and body fields. An accepted frame's header and body are the bytes received, none left over (R193). -/
def Obligations.FourChecksInOrder : Prop :=
  (∀ bits : List Bit, bits.length % 8 ≠ 0 ∨ bits.length < 32 ∨ 2272 < bits.length → judgeContent bits = .malformed) ∧
  ∀ (h1 h0 c1 c0 : Byte) (body : List Byte), body.length ≤ 280 →
    let bits := bitsOfBytes ([h1, h0] ++ body ++ [c1, c0])
    let kind := (((h1 ++ h0 : Word) >>> 4).setWidth 5 : BitVec 5).toNat
    if crc ([h1, h0] ++ body) ≠ c1 ++ c0 then judgeContent bits = .crcError
    else if 10 < kind then judgeContent bits = .unknownKind
    else match readFrame (h1 ++ h0) body with
      | none => judgeContent bits = .malformed
      | some f => judgeContent bits = .good f ∧ f.legal ∧ f.header = h1 ++ h0 ∧ f.headerBody = [h1, h0] ++ body

/-- A good frame through the filter (R10) and into the Receive Hold (R26 to R28): the own number is recorded as
DUPLICATE_STATION; another domain or destination drops the frame; with the head waiting for a write it joins behind, or
at a full hold takes the newest slot with OVERRUNS and HOLD_OVERRUN; at an empty hold a frame of no window leaves at
once, and one that finds a window is handed on by R29, GRANTs it makes due are listed (R142), and its slot is freed
unless it waits for a write. The run counts after the closing delimiter are log 19's, the destuffing log 7's. -/
def Obligations.GoodFramesAreFilteredAndHeld : Prop :=
  ∀ (s : State) (bits stuffed content : List Bit) (f : Frame), s.li.line.runs → s.li.rx = .frame bits →
    s.len = false → stuffedContentOk stuffed = true → destuff stuffed = some content → judgeContent content = .good f →
    (f.source = s.station →
      exec (.frameReceived stuffed) s =
        .next { s with li := s.li.closed,
                       en := s.eventOf { cause := .duplicateStation, station := some s.station } }) ∧
    (f.source ≠ s.station → s.lp.params.domainSet.getLsbD f.domain.toNat = false →
      exec (.frameReceived stuffed) s = .next { s with li := s.li.closed }) ∧
    (f.source ≠ s.station → s.lp.params.domainSet.getLsbD f.domain.toNat = true →
      (∀ (d u k sk : Byte) (p : List Byte), f.body = .message d u k sk p → d ≠ s.station → d ≠ 31 →
        exec (.frameReceived stuffed) s = .next { s with li := s.li.closed }) ∧
      ((∀ (d u k sk : Byte) (p : List Byte), f.body = .message d u k sk p → d = s.station ∨ d = 31) →
        (∀ x y z : Frame, s.rh.slots = [x, y, z] →
          exec (.frameReceived stuffed) s =
            .next { s with li := s.li.closed, rh := { s.rh with slots := [x, y, f] },
                           en := s.eventIn (s.en.bump .overruns 1)
                             { cause := .holdOverrun, station := some z.source } }) ∧
        (s.rh.work ≠ none → s.rh.slots.length < 3 →
          exec (.frameReceived stuffed) s =
            .next { s with li := s.li.closed, rh := { s.rh with slots := s.rh.slots ++ [f] } }) ∧
        (∀ b : Word, s.rh = { slots := [], work := none } → f.body.base = some b → s.maps.exact f.domain b = none →
          exec (.frameReceived stuffed) s = .next { s with li := s.li.closed }) ∧
        (∀ (b : Word) (w : WinId), s.rh = { slots := [], work := none } → f.body.base = some b →
          s.maps.exact f.domain b = some w →
          let t := (({ s with li := s.li.closed, rh := { slots := [f], work := none } } : State).handleFor w f.source
            f.body).settleGrants
          (t.rh.work = none →
            exec (.frameReceived stuffed) s = .next { t with rh := { slots := t.rh.slots.tail, work := none } }) ∧
          (t.rh.work ≠ none → exec (.frameReceived stuffed) s = .next t))))

/-- A MESSAGE received at an empty hold (R159, R160): one to this station, or a broadcast that a filter matches, joins
the in FIFO, with an occurrence on the message vector if the FIFO was empty; at a full FIFO it is lost with MSG_DROPS
and MESSAGE_OVERFLOW; a broadcast that no filter matches is dropped. The run counts after the closing delimiter are log
19's. -/
def Obligations.ReceivedMessagesJoinTheFifo : Prop :=
  ∀ (s : State) (bits stuffed content : List Bit) (f : Frame) (d u k sk : Byte) (p : List Byte),
    s.li.line.runs → s.li.rx = .frame bits → s.len = false → stuffedContentOk stuffed = true →
    destuff stuffed = some content → judgeContent content = .good f → f.body = .message d u k sk p →
    f.source ≠ s.station → s.lp.params.domainSet.getLsbD f.domain.toNat = true →
    s.rh = { slots := [], work := none } →
    let m : InMessage := { source := f.source, destination := d, urgency := u, kind := k, subkind := sk, payload := p }
    let matched : Prop := ∃ i : Fin 6, s.mu.filters[i].enable = true ∧ s.mu.filters[i].kind = k ∧
      (s.mu.filters[i].subkind = 255 ∨ s.mu.filters[i].subkind = sk)
    (d = s.station ∨ d = 31 ∧ matched →
      (s.mu.inFifo.length < 8 →
        exec (.frameReceived stuffed) s =
          .next { s with li := s.li.closed, mu := { s.mu with inFifo := s.mu.inFifo ++ [m] },
                         en := if s.mu.inFifo = [] then
                             { s.en with pending := s.en.pending ||| (1 <<< s.lp.params.messageVector.toNat) }
                           else s.en }) ∧
      (8 ≤ s.mu.inFifo.length →
        exec (.frameReceived stuffed) s =
          .next { s with li := s.li.closed,
                         en := s.eventIn (s.en.bump .msgDrops 1)
                           { cause := .messageOverflow, station := some f.source } })) ∧
    (d = 31 → d ≠ s.station → ¬matched → exec (.frameReceived stuffed) s = .next { s with li := s.li.closed })

/-! ### Transmission -/

/-- TRANSMIT_START (R12, R13): a station that may begin and has a frame due assembles it and enters ARBITRATE. Assembly
seals the entries of an UPDATE (R66) and places the page read of a SWEEP_DATA, for the bt that the frame begins in (R37,
log 6), and does nothing else. A station that may not begin, or has nothing due, does nothing. -/
def Obligations.TransmitStartAssembles : Prop :=
  (∀ s : State, ¬s.readyToSend ∨ s.nextFrame = none → exec .transmitStart s = .next s) ∧
  ∀ (s : State) (o : OnLine), s.readyToSend → s.nextFrame = some o →
    ∃ t : State, exec .transmitStart s = .next t ∧
      t = { s with li := { s.li with tx := .arbitrate o }, pq := t.pq, rm := { s.rm with arb := t.rm.arb } } ∧
      (∀ (w : WinId) (q : List Word), o.source = .update w q →
        t.pq.entries = (s.pq.entries.take q.length).map (fun e => { e with sealed := true }) ++
          s.pq.entries.drop q.length ∧ t.pq.mergeHold = s.pq.mergeHold) ∧
      ((∀ (w : WinId) (q : List Word), o.source ≠ .update w q) → t.pq = s.pq) ∧
      (∀ w : WinId, o.source = .sweepData w → t.rm.arb = s.rm.arb.request .sweepReader (s.li.btCount + 1)) ∧
      ((∀ w : WinId, o.source ≠ .sweepData w) → t.rm = s.rm)

/-- The source classes of R13, in their order, and the choice within each; and when each of them but the first has a frame
due: an UPDATE (R66), a MARK (R71), a REFRESH_REQ (R88), a sweep frame (R105). -/
def Obligations.SourceClassesInOrder : Prop :=
  ∀ s : State,
    (s.pq.updateDue = true ↔
      ∃ (e : PostEntry) (es : List PostEntry), s.pq.entries = e :: es ∧ (es = [] → s.pq.mergeHold = false)) ∧
    (∀ w : WinId, s.markDue w = true ↔
      (s.win w).ownership = .owner ∧ (∀ e ∈ s.pq.entries, e.window ≠ w) ∧
        ((s.win w).markNow = true ∨ (s.win w).markTimer = .running 0)) ∧
    (∀ w : WinId, s.reservedCtx w ≠ none ↔ ∃ i : Fin 2, s.ctx i = .reserved w) ∧
    (s.sweepDue = true ↔
      ∃ c : Sweep, s.se.current = some c ∧
        (c.phase = .beginDue → s.pq.mergeHold = true → ∀ (front : List PostEntry) (e : PostEntry),
          s.pq.entries = front ++ [e] → e.window ≠ c.window)) ∧
    (∀ (f : OwnerFrame) (rest : List OwnerFrame), s.ownerDue = f :: rest →
      ∃ o : OnLine, s.nextFrame = some o ∧ o.source = f.source) ∧
    (s.ownerDue = [] →
      (∀ (e : PostEntry) (es : List PostEntry), s.pq.entries = e :: es → (es = [] → s.pq.mergeHold = false) →
        ∃ (o : OnLine) (q : List Word), s.nextFrame = some o ∧ o.source = .update e.window q) ∧
      (s.pq.updateDue = false →
        (∀ w : WinId, s.markDue w = true → (∀ v : WinId, v < w → s.markDue v = false) →
          ∃ o : OnLine, s.nextFrame = some o ∧ o.source = .mark w) ∧
        ((∀ w : WinId, s.markDue w = false) →
          (∀ w : WinId, s.reservedCtx w ≠ none → (∀ v : WinId, v < w → s.reservedCtx v = none) →
            ∃ o : OnLine, s.nextFrame = some o ∧ o.source = .refreshReq w) ∧
          ((∀ w : WinId, s.reservedCtx w = none) →
            (∀ c : Sweep, s.se.current = some c → s.sweepDue = true →
              ∃ o : OnLine, s.nextFrame = some o ∧
                o.source = match c.phase with
                  | .beginDue => .sweepBegin c.window
                  | .data => .sweepData c.window
                  | .endDue => .sweepEnd c.window) ∧
            (s.sweepDue = false →
              (∀ (m : OutMessage) (rest : List OutMessage), s.mu.outQueue = m :: rest →
                ∃ o : OnLine, s.nextFrame = some o ∧ o.source = .message) ∧
              (s.mu.outQueue = [] → s.nextFrame = none))))))

/-- What a frame carries as it is assembled: this station's number, and its source's values (R66, R71, R88, R105 to
R108, R134, R140, R142, R150, R156). An UPDATE takes the head and goes on to the first entry that fails a condition
(R66); a MESSAGE goes out in the lowest-numbered domain of the set (R156); a TAKEOVER carries the values of its takeover
(log 35). -/
def Obligations.FramesCarryTheirSourcesValues : Prop :=
  ∀ (s : State) (o : OnLine), s.nextFrame = some o →
    o.frame.source = s.station ∧ o.withdrawn = false ∧ o.sent = 0 ∧ s.carries o

/-- SWEEP_PAGE_READ_GRANT (R37): the frame on the line carries the page as the grant finds it, and the grant ends.
Addresses above 65535, which no enabled window has, wrap (log 22). -/
def Obligations.SweepPageIsReadAtItsGrant : Prop :=
  ∀ (s : State) (f : OnLine) (w : WinId) (b : Word) (i p : Byte) (d : List Byte),
    s.rm.arb.granted = some .sweepReader → f.source = .sweepData w → f.pagePending = true →
    f.frame.body = .sweepData b i p d →
    ∃ page : List Byte, page.length = 256 ∧
      (∀ k : Nat, k < 256 →
        page[k]? = some (Memory.read s.rm.mem ((((s.win w).desc.localBase.toNat + p.toNat) * 256 + k) % 65536))) ∧
      let g : OnLine := { f with frame := { f.frame with body := .sweepData b i p page }, pagePending := false }
      let rm : ReplicaBlock := { s.rm with arb := s.rm.arb.release }
      (s.li.tx = .arbitrate f →
        exec .sweepPageReadGrant s = .next { s with li := { s.li with tx := .arbitrate g }, rm := rm }) ∧
      (s.li.tx = .send f → exec .sweepPageReadGrant s = .next { s with li := { s.li with tx := .send g }, rm := rm })

/-- ARBITRATION_WON enters SEND. ARBITRATION_LOST returns to IDLE, counts ARB_LOSSES and leaves every due frame due; the
receiver goes on with the frame as another station's (R14), the run counts being log 19's. TRANSMIT_FAULT (R15): IDLE
and HUNT, TX_FAULTS and the consecutive-fault count incremented, every due frame still due; at 16 faults the line is
FAULTED with LINE_FAULTED and the recovery timer by the recovered-once flag (R21). A sweep goes on from a lost frame as it
stood (R109), but an abandoned one whose BEGIN is lost is cleared (R110). -/
def Obligations.AttemptsSettle : Prop :=
  (∀ (s : State) (f : OnLine), s.li.tx = .arbitrate f →
    exec .arbitrationWon s = .next { s with li := { s.li with tx := .send f } } ∧
    ∃ t : State, exec .arbitrationLost s = .next t ∧
      t.li = { s.li with tx := .idle, rx := t.li.rx, recessiveRun := 0, dominantRun := max 1 s.li.dominantRun } ∧
      (∀ bits : List Bit, s.li.rx = .frame bits → t.li.rx = .frame bits) ∧
      t.en = s.en.bump .arbLosses 1 ∧ (∀ x ∈ s.ownerDue, x ∈ t.ownerDue) ∧
      s.losesSweepFrame t f.source ∧
      t = { s with li := t.li, en := t.en, rm := { s.rm with arb := t.rm.arb }, se := t.se, ownerDue := t.ownerDue }) ∧
  ∀ (s : State) (f : OnLine), s.li.tx.onLine = some f → s.li.line.runs → s.li.faults ≤ 15 →
    ∃ t : State, exec .transmitFault s = .next t ∧
      (s.li.faults < 15 →
        t.li = { s.li with tx := .idle, rx := .hunt none, faults := s.li.faults + 1 } ∧
        t.en = s.en.bump .txFaults 1) ∧
      (s.li.faults = 15 →
        t.li = { s.li with tx := .idle, rx := .hunt none, faults := 16, line := .faulted,
                           recoveryTimer := if s.li.recoveredOnce then .stopped else .running 8192 } ∧
        t.en = s.eventIn (s.en.bump .txFaults 1) { cause := .lineFaulted }) ∧
      (∀ x ∈ s.ownerDue, x ∈ t.ownerDue) ∧ s.losesSweepFrame t f.source ∧
      t = { s with li := t.li, en := t.en, rm := { s.rm with arb := t.rm.arb }, se := t.se, ownerDue := t.ownerDue }

/-- FRAME_COMPLETED in the Line Interface, for every source (R16, R17): IDLE, no consecutive faults, the recovered-once
flag cleared, the yield flag set, the run counts log 19's. Replica, hold, maps and in FIFO stay; only a MESSAGE takes an
entry from the out queue (R157). At its source, for a MESSAGE, MARK, DENY, CLAIM or TAKEOVER (R157, R72, R140, R134,
R150): the head leaves the out queue; the mark-now flag is cleared and an owner's mark timer restarted, where a CLAIMING
window stays as it is (log 28); the DENY, CLAIM or TAKEOVER is no longer due; the claim timer starts; an OWNER asks for
a TAKEOVER sweep (R103). A CLAIM, DENY or TAKEOVER that its source has withdrawn does nothing there (R13, R137), and the
CLAIM of a window that has left CLAIMING, or the TAKEOVER of one that has left OWNER, is no longer due and does no more. -/
def Obligations.FramesComplete : Prop :=
  (∀ (s : State) (f : OnLine), s.li.tx = .send f →
    ∃ t : State, exec .frameCompleted s = .next t ∧
      t.li = { s.li with tx := .idle, faults := 0, recoveredOnce := false, yield := true, rx := .hunt none,
                         recessiveRun := 0, dominantRun := 1 } ∧
      t.rm.mem = s.rm.mem ∧ t.rh = s.rh ∧ t.maps = s.maps ∧
      t.mu = (if f.source = .message then { s.mu with outQueue := s.mu.outQueue.tail } else s.mu)) ∧
  (∀ (s : State) (f : OnLine) (w : WinId), s.li.tx = .send f → f.withdrawn = true →
    (f.source = .claim w ∨ (∃ target : Station, f.source = .deny w target) ∨ f.source = .takeover w) →
    ∃ t : State, exec .frameCompleted s = .next t ∧
      t = { s with li := t.li, rm := { s.rm with arb := t.rm.arb }, ownerDue := s.settleGrants.ownerDue }) ∧
  ∀ (s : State) (f : OnLine) (w : WinId), s.li.tx = .send f → f.withdrawn = false →
    (f.source = .message →
      ∃ t : State, exec .frameCompleted s = .next t ∧ t.mu = { s.mu with outQueue := s.mu.outQueue.tail } ∧
        t = { s with li := t.li, rm := { s.rm with arb := t.rm.arb }, ownerDue := t.ownerDue, mu := t.mu }) ∧
    (f.source = .mark w →
      ∃ t : State, exec .frameCompleted s = .next t ∧
        t.win w = (match (s.win w).ownership with
          | .owner => { s.win w with markNow := false, markTimer := s.freshMarkTimer }
          | .granting => { s.win w with markNow := false }
          | .follower | .claiming => s.win w) ∧
        (∀ v : WinId, v ≠ w → t.win v = s.win v) ∧
        t = { s with li := t.li, rm := { s.rm with arb := t.rm.arb }, ownerDue := t.ownerDue, windows := t.windows }) ∧
    (∀ target : Station, f.source = .deny w target →
      ∃ t : State, exec .frameCompleted s = .next t ∧ OwnerFrame.deny w target ∉ t.ownerDue ∧
        (∀ x ∈ s.ownerDue, x ≠ .deny w target → x ∈ t.ownerDue) ∧
        t = { s with li := t.li, rm := { s.rm with arb := t.rm.arb }, ownerDue := t.ownerDue }) ∧
    (f.source = .claim w → (s.win w).ownership = .claiming →
      ∃ t : State, exec .frameCompleted s = .next t ∧ OwnerFrame.claim w ∉ t.ownerDue ∧
        t.win w = { s.win w with claimTimer := .running (s.lp.params.claimTimeout * 1024) } ∧
        (∀ v : WinId, v ≠ w → t.win v = s.win v) ∧
        t = { s with li := t.li, rm := { s.rm with arb := t.rm.arb }, ownerDue := t.ownerDue, windows := t.windows }) ∧
    (f.source = .takeover w → (s.win w).ownership = .owner →
      ∃ t : State, exec .frameCompleted s = .next t ∧ (∀ x ∈ t.ownerDue, x.source ≠ .takeover w) ∧
        (∀ x ∈ s.ownerDue, x.source ≠ .takeover w → x ∈ t.ownerDue) ∧
        s.asksSweep t w .takeover ∧
        t = { s with li := t.li, rm := { s.rm with arb := t.rm.arb }, ownerDue := t.ownerDue, se := t.se }) ∧
    (f.source = .claim w → (s.win w).ownership ≠ .claiming →
      ∃ t : State, exec .frameCompleted s = .next t ∧
        t.ownerDue = ({ s with ownerDue := s.ownerDue.filter fun x => decide (x ≠ .claim w) } : State).settleGrants.ownerDue ∧
        t = { s with li := t.li, rm := { s.rm with arb := t.rm.arb }, ownerDue := t.ownerDue }) ∧
    (f.source = .takeover w → (s.win w).ownership ≠ .owner →
      ∃ t : State, exec .frameCompleted s = .next t ∧
        t.ownerDue =
          ({ s with ownerDue := s.ownerDue.filter fun x => decide (x.source ≠ .takeover w) } : State).settleGrants.ownerDue ∧
        t = { s with li := t.li, rm := { s.rm with arb := t.rm.arb }, ownerDue := t.ownerDue })

/-- FRAME_COMPLETED of an UPDATE (R67): the sealed entries it carried leave the queue's head and no other does; an
owner's mark timer is restarted; a held write that now fits is allowed (R62), and no other local cycle changes. -/
def Obligations.CompletionOfUpdate : Prop :=
  ∀ (s : State) (f : OnLine) (w : WinId) (seqs : List Word) (out left : List PostEntry),
    s.li.tx = .send f → f.source = .update w seqs → s.pq.entries = out ++ left →
    (∀ e ∈ out, e.sealed = true ∧ e.window = w ∧ e.seq ∈ seqs) →
    (∀ e ∈ left.head?, ¬(e.sealed = true ∧ e.window = w ∧ e.seq ∈ seqs)) →
    ∃ t : State, exec .frameCompleted s = .next t ∧ t.pq.entries = left ∧
      t.win w = (if (s.win w).ownership = .owner then { s.win w with markTimer := s.freshMarkTimer } else s.win w) ∧
      (∀ v : WinId, v ≠ w → t.win v = s.win v) ∧
      (∀ (c : LocalCycle) (v : WinId) (n : Nat), s.lp.cycle = some c → c.stage = .heldWrite v n →
        (({ s.pq with entries := left } : PostQueue).fits v (s.win v).nextSeq (s.windowOffset v c) c.bytes.length =
            true →
          t.lp = { s.lp with cycle := some { c with stage := .allowedWrite v } }) ∧
        (({ s.pq with entries := left } : PostQueue).fits v (s.win v).nextSeq (s.windowOffset v c) c.bytes.length =
            false → t.lp = s.lp)) ∧
      ((∀ c : LocalCycle, s.lp.cycle = some c → ∀ (v : WinId) (n : Nat), c.stage ≠ .heldWrite v n) → t.lp = s.lp) ∧
      t = { s with li := t.li, rm := { s.rm with arb := t.rm.arb }, ownerDue := t.ownerDue, windows := t.windows,
                   pq := t.pq, lp := t.lp }

/-- The GRANTs that become due (R142): those of the GRANTING windows with no post in the queue and no END owed, in
window order, behind the due frames; every row that ends a frame on the line makes them due, and so does a frame's
handling. And FRAME_COMPLETED of a GRANT, not withdrawn, of a window still GRANTING (R143): the window is handed over,
SYNCED at the next sequence the GRANT carried, or for a returned GRANT in GAP with its expected sequence as it stood and
a delay of one bt at least (log 18). A GRANT that is withdrawn, or whose window has left GRANTING, does nothing there. -/
def Obligations.GrantsBecomeDueAndHandOver : Prop :=
  (∀ s : State,
    s.settleGrants = { s with ownerDue := s.ownerDue ++ (allWindows.filter fun w =>
      decide ((s.win w).ownership = .granting) && s.pq.entries.all (fun e => decide (e.window ≠ w)) &&
        s.se.current.all (fun c => decide (c.window ≠ w) || !c.abandon) &&
        decide (OwnerFrame.grant w ∉ s.ownerDue)).map .grant }) ∧
  (∀ (s t : State) (i : Instr) (f : OnLine) (w : WinId),
    (i = .frameCompleted ∧ s.li.tx = .send f) ∨ (i = .arbitrationLost ∧ s.li.tx = .arbitrate f) ∨
      (i = .transmitFault ∧ s.li.tx.onLine = some f) →
    exec i s = .next t → (t.win w).ownership = .granting → (∀ e ∈ t.pq.entries, e.window ≠ w) →
    (∀ c ∈ t.se.current, c.window = w → c.abandon = false) → OwnerFrame.grant w ∈ t.ownerDue) ∧
  (∀ (s : State) (f : OnLine) (w : WinId), s.li.tx = .send f → f.source = .grant w →
    f.withdrawn = true ∨ (s.win w).ownership ≠ .granting →
    ∃ t : State, exec .frameCompleted s = .next t ∧
      t = { s with li := t.li, rm := { s.rm with arb := t.rm.arb }, ownerDue := s.settleGrants.ownerDue }) ∧
  ∀ (s : State) (f : OnLine) (w : WinId) (b : Word) (g : Byte) (q : Word) (grantee : Station) (returned : Bool),
    s.li.tx = .send f → f.source = .grant w → f.frame.body = .grant b g q grantee returned → f.withdrawn = false →
    (s.win w).ownership = .granting → s.li.line.runs →
    ∃ t : State, exec .frameCompleted s = .next t ∧
      (t.win w).ownership = .follower ∧ (t.win w).recordedOwner = grantee ∧ (t.win w).generation = g ∧
      (t.win w).grantee = none ∧ (t.win w).returned = false ∧ (t.win w).markNow = false ∧
      (returned = false → t.win w = { s.win w with
        ownership := .follower, recordedOwner := grantee, generation := g, grantee := none, returned := false,
        markNow := false, sync := .synced, expected := some q, gapOrigin := none, behind := 0 }) ∧
      (returned = true → (t.win w).sync = .gap ∧ (t.win w).gapOrigin = some .here ∧
        (t.win w).expected = (s.win w).expected ∧
        (t.win w).wait = s.newDelay) ∧
      (returned = false ∨ s.reservedCtx w = none → t.contexts = s.contexts ∧ ∀ v : WinId, v ≠ w → t.win v = s.win v) ∧
      t.en = s.eventOf { cause := .ownershipGiven, window := some w, station := some grantee, sequence := some q } ∧
      OwnerFrame.grant w ∉ t.ownerDue ∧
      t = { s with li := t.li, rm := { s.rm with arb := t.rm.arb }, ownerDue := t.ownerDue, windows := t.windows,
                   contexts := t.contexts, en := t.en }

/-- FRAME_COMPLETED of a REFRESH_REQ (R89): the reserved context is bound, the window REFRESHING with gap origin HERE
and the refresh timeout running; a request withdrawn on the line has no effect at its source. FRAME_COMPLETED of the
current sweep's frames (R106 to R108): a SWEEP_BEGIN fixes the sweep id and snapshot it carried and steps the id
counter; a SWEEP_DATA steps the page; a SWEEP_END clears the sweep, and an OWNER's again flag queues the window once
more before the head becomes current. -/
def Obligations.CompletionOfRefreshAndSweepFrames : Prop :=
  (∀ (s : State) (f : OnLine) (w : WinId), s.li.tx = .send f → f.source = .refreshReq w →
    (f.withdrawn = false → ∀ i : Fin 2, s.reservedCtx w = some i →
      ∃ t : State, exec .frameCompleted s = .next t ∧
        t.ctx i = .bound { window := w, pageCount := (s.win w).pages, attempt := none, received := [], deferred := [],
                           overflow := false, deferredGap := false } ∧
        t.win w = { s.win w with sync := .refreshing, gapOrigin := some .here, contextWait := false,
                                 wait := .refreshTimeout (s.lp.params.refreshTimeout * 1024) } ∧
        (∀ v : WinId, v ≠ w → t.win v = s.win v) ∧ (∀ j : Fin 2, j ≠ i → t.ctx j = s.ctx j) ∧
        t = { s with li := t.li, rm := { s.rm with arb := t.rm.arb }, ownerDue := t.ownerDue, windows := t.windows,
                     contexts := t.contexts }) ∧
    (f.withdrawn = true →
      ∃ t : State, exec .frameCompleted s = .next t ∧
        t = { s with li := t.li, rm := { s.rm with arb := t.rm.arb }, ownerDue := t.ownerDue })) ∧
  ∀ (s : State) (f : OnLine) (c : Sweep), s.li.tx = .send f → s.se.current = some c →
    (∀ (b : Word) (g i : Byte) (sn : Word) (n : Byte) (o : Origin), f.source = .sweepBegin c.window →
      f.frame.body = .sweepBegin b g i sn n o →
      ∃ t : State, exec .frameCompleted s = .next t ∧ t.se.idCounter = s.se.idCounter + 1 ∧
        t.se.queue = s.se.queue ∧
        t.se.current = some { c with sweepId := some i, snapshot := some sn, nextPage := 0,
                                     phase := if c.abandon then .endDue else .data }) ∧
    (f.source = .sweepData c.window →
      ∃ t : State, exec .frameCompleted s = .next t ∧
        t.se = { s.se with current := some { c with
          nextPage := c.nextPage + 1,
          phase := if c.nextPage + 1 = (s.win c.window).pages ∨ c.abandon = true then .endDue else .data } }) ∧
    (f.source = .sweepEnd c.window →
      let queue := s.se.queue ++
        (if c.again = true ∧ (s.win c.window).ownership = .owner then [(c.window, Origin.requested)] else [])
      ∃ t : State, exec .frameCompleted s = .next t ∧
        t.se = ({ s.se with current := none } : SweepEngine).withQueue queue)

/-! ### Timers -/

/-- JOIN_TIMER_EXPIRY in LISTEN (R19), whatever count is left (log 18): ONLINE; at the first entry since power-on or
RESET the owned windows' mark timers (R69), the followed windows' request delays, of one bt at least (R97, log 18), and
the START sweeps of the OWN windows (R102). -/
def Obligations.JoinTimerBringsOnline : Prop :=
  ∀ s : State, s.li.line = .listen →
    (s.li.onlineSeen = true →
      exec .joinTimerExpiry s = .next { s with li := { s.li with line := .online, joinTimer := .stopped } }) ∧
    (s.li.onlineSeen = false →
      ∃ t : State, exec .joinTimerExpiry s = .next t ∧
        t = { s with li := { s.li with line := .online, joinTimer := .stopped, onlineSeen := true },
                     windows := t.windows, se := t.se } ∧
        (∀ w : WinId,
          ((s.win w).standing ≠ .enabled → t.win w = s.win w) ∧
          ((s.win w).standing = .enabled → (s.win w).ownership = .owner →
            t.win w = { s.win w with
              markTimer := if s.lp.params.markInterval = 0 then .stopped
                else .running (s.lp.params.markInterval * 1024) }) ∧
          ((s.win w).standing = .enabled → s.follows w →
            t.win w = { s.win w with
              wait := if (s.win w).sync = .gap ∨ (s.win w).sync = .unsynced then
                  .requestDelay (max 1 (s.li.backoff.toNat * 32)) else (s.win w).wait }) ∧
          ((s.win w).standing = .enabled → (s.win w).role = some .own →
            (w, Origin.start) ∈ t.se.queue ∨ ∃ c : Sweep, t.se.current = some c ∧ c.window = w ∧ c.origin = .start)))

/-- RECOVERY_TIMER_EXPIRY in FAULTED (R21): LISTEN with the join timer started, no consecutive faults, and the
recovered-once flag set. MARK_TIMER_EXPIRY: a running mark timer has expired and stays so (R69). REQUEST_DELAY_EXPIRY of
a followed window in GAP or UNSYNCED (R87): the lowest free context is reserved for it, or with none free the context-
wait flag is set; the wait timer stays stopped. Each acts whatever count its timer has left (log 18). -/
def Obligations.RecoveryMarkAndDelayTimersExpire : Prop :=
  (∀ (s : State) (n : Nat), s.li.line = .faulted → s.li.recoveryTimer = .running n →
    exec .recoveryTimerExpiry s =
      .next { s with li := { s.li with line := .listen, joinTimer := .running (s.lp.params.joinInterval * 1024),
                                       recoveryTimer := .stopped, faults := 0, recoveredOnce := true } }) ∧
  (∀ (s : State) (w : WinId) (n : Nat), (s.win w).markTimer = .running n →
    exec (.markTimerExpiry w) s =
      .next { s with windows := s.windows.set w { s.win w with markTimer := .running 0 } }) ∧
  ∀ (s : State) (w : WinId) (n : Nat), s.follows w →
    (s.win w).sync = .gap ∨ (s.win w).sync = .unsynced → (s.win w).wait = .requestDelay n →
    (s.ctx 0 = .free →
      exec (.requestDelayExpiry w) s =
        .next { s with windows := s.windows.set w { s.win w with wait := .stopped },
                       contexts := s.contexts.set 0 (.reserved w) }) ∧
    (s.ctx 0 ≠ .free → s.ctx 1 = .free →
      exec (.requestDelayExpiry w) s =
        .next { s with windows := s.windows.set w { s.win w with wait := .stopped },
                       contexts := s.contexts.set 1 (.reserved w) }) ∧
    (s.ctx 0 ≠ .free → s.ctx 1 ≠ .free →
      exec (.requestDelayExpiry w) s =
        .next { s with windows := s.windows.set w { s.win w with wait := .stopped, contextWait := true } })

/-- REFRESH_TIMEOUT_EXPIRY of a REFRESHING window, whatever count is left (R118, log 18): with no frame in handling the
attempt fails (R123, logs 12, 14 and 18). A page write of the attempt that waits is withdrawn. -/
def Obligations.RefreshTimeoutFailsTheAttempt : Prop :=
  (∀ (s : State) (w : WinId) (n : Nat) (i : Fin 2) (b : Binding), s.li.line.runs → s.follows w →
    (s.win w).sync = .refreshing → (s.win w).wait = .refreshTimeout n → s.boundCtx w = some i → s.ctx i = .bound b →
    s.rh = { slots := [], work := none } →
    ∃ t : State, exec (.refreshTimeoutExpiry w) s = .next t ∧ s.attemptFails t w i b ∧ t.rm = s.rm ∧ t.rh = s.rh) ∧
  ∀ (s : State) (w : WinId) (n i : Nat) (f : Frame) (d : List Byte), (s.win w).sync = .refreshing →
    s.follows w → (s.win w).wait = .refreshTimeout n →
    s.rh = { slots := [f], work := some (.page w i d) } → s.rm.arb.granted ≠ some .writer →
    ∃ t : State, exec (.refreshTimeoutExpiry w) s = .next t ∧ t.rm.mem = s.rm.mem ∧
      t.rh = { slots := [], work := none } ∧ ∀ q ∈ t.rm.arb.waiting, q.who ≠ .writer

/-- CLAIM_TIMER_EXPIRY of a CLAIMING window, whatever count is left (R136, log 18): the CLAIM is due again up to the
third attempt; after it a permitted takeover (R149), or FOLLOWER with CLAIM_FAILED. -/
def Obligations.ClaimTimerExpires : Prop :=
  ∀ (s : State) (w : WinId) (n : Nat), s.li.line.runs → (s.win w).ownership = .claiming →
    (s.win w).claimTimer = .running n →
    ((s.win w).claimAttempts < 3 →
      exec (.claimTimerExpiry w) s =
        .next { s with windows := s.windows.set w { s.win w with claimAttempts := (s.win w).claimAttempts + 1,
                                                                 claimTimer := .stopped },
                       ownerDue := s.ownerDue ++ [.claim w] }) ∧
    ((s.win w).claimAttempts = 3 → (s.win w).desc.takeoverPermitted = false →
      ∃ t : State, exec (.claimTimerExpiry w) s = .next t ∧
        t.win w = { s.win w with ownership := .follower, claimAttempts := 0, claimTimer := .stopped } ∧
        (∀ v : WinId, v ≠ w → t.win v = s.win v) ∧ OwnerFrame.claim w ∉ t.ownerDue ∧
        t.en = s.eventOf { cause := .claimFailed, window := some w, station := some (s.win w).recordedOwner } ∧
        t = { s with li := { s.li with tx := t.li.tx }, windows := t.windows, ownerDue := t.ownerDue, en := t.en }) ∧
    ((s.win w).claimAttempts = 3 → (s.win w).desc.takeoverPermitted = true → s.rh = { slots := [], work := none } →
      let q : Word := if (s.win w).sync = .synced then (s.win w).expected.getD 0 else 0
      ∃ t : State, exec (.claimTimerExpiry w) s = .next t ∧
        (t.win w).ownership = .owner ∧ (t.win w).recordedOwner = s.station ∧
        (t.win w).generation = (s.win w).generation + 1 ∧ (t.win w).nextSeq = q ∧ (t.win w).retry = 0 ∧
        (t.win w).claimAttempts = 0 ∧ (t.win w).claimTimer = .stopped ∧ (t.win w).wait = .stopped ∧
        (t.win w).contextWait = false ∧ OwnerFrame.claim w ∉ t.ownerDue ∧
        OwnerFrame.takeover w ((s.win w).generation + 1) q ∈ t.ownerDue ∧
        t.en = s.eventOf { cause := .ownershipGained, window := some w, station := some (s.win w).recordedOwner,
                           sequence := some q } ∧ t.rm.mem = s.rm.mem)

/-! ### Local cycles on the replica -/

/-- LOCAL_REPLICA_READ and LOCAL_READ_GRANT (R33, R36, R178): the read asks the arbiter; at its grant D[15:0] carries
the selected bytes, a lane not selected being none (log 10), WAIT is deasserted and the arbiter is handed on; a read of
neither byte returns 0 at once. LOCAL_WRITE_PRIVATE and its LOCAL_WRITE_GRANT: a write to a page of no window asks the
arbiter; at its grant the selected bytes are stored at its address and nothing else of the replica changes; it makes no
post. A request is of the present bt by the model's count (log 6). -/
def Obligations.ReplicaReadsAndPrivateWrites : Prop :=
  (∀ (s : State) (a : BitVec 16) (be : BitVec 2), s.idlePort → a.toNat < 0x8000 →
    (be = 0 →
      exec (.localReplicaRead a be) s =
        .next { s with lp := { s.lp.served false a 0 0 with dataOut := { low := some 0, high := some 0 } } }) ∧
    (be ≠ 0 →
      ∃ t : State, exec (.localReplicaRead a be) s = .next t ∧
        s.asks t { write := false, a := a, be := be, data := 0, stage := .read })) ∧
  (∀ (s : State) (c : LocalCycle), s.lp.cycle = some c → c.stage = .read → c.be ≠ 0 →
    s.rm.arb.granted = some .localPort →
    exec .localReadGrant s =
      .next { s with
        lp := { s.lp with cycle := some { c with stage := .complete }, wait := false,
                          dataOut := { low := if c.be.getLsbD 0 then some (Memory.read s.rm.mem (2 * c.a.toNat)) else none,
                                       high := if c.be.getLsbD 1 then some (Memory.read s.rm.mem (2 * c.a.toNat + 1))
                                         else none } },
        rm := { s.rm with arb := s.rm.arb.release } }) ∧
  (∀ (s : State) (a : BitVec 16) (be : BitVec 2) (data : Word), s.idlePort → a.toNat < 0x8000 →
    s.maps.ofLocalPage (2 * a.toNat / 256) = none →
    (be = 0 → exec (.localWritePrivate a be data) s = .next { s with lp := s.lp.served true a be data }) ∧
    (be ≠ 0 →
      ∃ t : State, exec (.localWritePrivate a be data) s = .next t ∧
        s.asks t { write := true, a := a, be := be, data := data, stage := .privateWrite })) ∧
  ∀ (s : State) (c : LocalCycle), s.lp.cycle = some c → c.stage = .privateWrite → c.a.toNat < 0x8000 →
    s.rm.arb.granted = some .localPort → Memory.wf s.rm.mem = true →
    ∃ t : State, exec .localWriteGrant s = .next t ∧ Memory.stored s.rm.mem t.rm.mem c.addr c.bytes ∧
      t = { s with lp := { s.lp with cycle := some { c with stage := .complete }, wait := false },
                   rm := { mem := t.rm.mem, arb := s.rm.arb.release } }

/-- LOCAL_WRITE_WINDOW into a window that is not OWNER (R56, R57): the write is refused at once, with the replica, the
queue and the window as they are, and LOCAL_WRITE_REFUSED recorded; at a SHARE FOLLOWER with auto-claim that is SYNCED a
claim starts (R134). A write of neither byte changes nothing (R178). Into a window in OWNER (R56, R62, R63, R65): a
write that fits is allowed, with a merge hold if it will merge, and asks the arbiter; one that does not is held for post
space with WAIT, or with wait limit 0 becomes an overflow write at once. A write merges when the queue's tail is an
unsealed entry of the window with the number last given, whose bytes it overlaps or adjoins, and the union is of 64
bytes at most (R60); it fits when the growth of the tail, or an entry with its bytes, has room in 32 entries and 2048
bytes (R62). A request is of the present bt by the model's count (log 6). -/
def Obligations.WindowWritesAreJudged : Prop :=
  (∀ (s : State) (a : BitVec 16) (be : BitVec 2) (data : Word) (w : WinId), s.idlePort → a.toNat < 0x8000 →
    s.maps.ofLocalPage (2 * a.toNat / 256) = some w →
    (be = 0 → exec (.localWriteWindow a be data) s = .next { s with lp := s.lp.served true a be data }) ∧
    (be ≠ 0 → (s.win w).ownership ≠ .owner → s.li.line.runs →
      let t : State :=
        { s with lp := s.lp.served true a be data,
                 en := s.eventOf { cause := .localWriteRefused, window := some w,
                                   station := some (s.win w).recordedOwner,
                                   address := some (BitVec.ofNat 16 (accessAddr a be)) } }
      if (s.win w).role = some .share ∧ (s.win w).ownership = .follower ∧ (s.win w).desc.autoClaim = true ∧
          (s.win w).sync = .synced then
        exec (.localWriteWindow a be data) s =
          .next { t with windows := s.windows.set w { s.win w with ownership := .claiming, claimAttempts := 1,
                                                                   claimTimer := .stopped },
                         ownerDue := s.ownerDue ++ [.claim w] }
      else exec (.localWriteWindow a be data) s = .next t)) ∧
  (∀ (s : State) (a : BitVec 16) (be : BitVec 2) (data : Word) (w : WinId), s.idlePort → a.toNat < 0x8000 →
    s.maps.ofLocalPage (2 * a.toNat / 256) = some w → be ≠ 0 → (s.win w).ownership = .owner →
    let c : LocalCycle := { write := true, a := a, be := be, data := data, stage := .complete }
    let offset := s.windowOffset w c
    (s.pq.fits w (s.win w).nextSeq offset c.bytes.length = true →
      ∃ t : State, exec (.localWriteWindow a be data) s = .next t ∧
        ({ s with pq := { s.pq with
            mergeHold := s.pq.wouldMerge w (s.win w).nextSeq offset c.bytes.length } } : State).asks t
          { c with stage := .allowedWrite w }) ∧
    (s.pq.fits w (s.win w).nextSeq offset c.bytes.length = false → s.lp.params.waitLimit ≠ 0 →
      exec (.localWriteWindow a be data) s =
        .next { s with lp := { s.lp with cycle := some { c with stage := .heldWrite w 0 }, wait := true } }) ∧
    (s.pq.fits w (s.win w).nextSeq offset c.bytes.length = false → s.lp.params.waitLimit = 0 →
      ∃ t : State, exec (.localWriteWindow a be data) s = .next t ∧ s.asks t { c with stage := .overflowWrite w })) ∧
  ∀ (q : PostQueue) (w : WinId) (next : Word) (offset n : Nat),
    (q.wouldMerge w next offset n = true ↔
      ∃ (front : List PostEntry) (e : PostEntry), q.entries = front ++ [e] ∧ e.window = w ∧ e.sealed = false ∧
        e.seq = next - 1 ∧ offset ≤ e.offset.toNat + e.data.length ∧ e.offset.toNat ≤ offset + n ∧
        max (offset + n) (e.offset.toNat + e.data.length) - min offset e.offset.toNat ≤ 64) ∧
    (q.wouldMerge w next offset n = true → ∀ (front : List PostEntry) (e : PostEntry), q.entries = front ++ [e] →
      (q.fits w next offset n = true ↔
        max (offset + n) (e.offset.toNat + e.data.length) - min offset e.offset.toNat - e.data.length ≤
          2048 - postBytes q.entries)) ∧
    (q.wouldMerge w next offset n = false →
      (q.fits w next offset n = true ↔ q.entries.length < 32 ∧ n ≤ 2048 - postBytes q.entries))

/-- LOCAL_WRITE_GRANT of an allowed write (R60, R61): its bytes are stored in the replica and placed in the queue in one
grant: merged into the tail, or appended with the window's next sequence, which is then incremented; R60 decides on the
queue at the grant, also where it finds other than the allowance did (log 13). POST_WAIT_EXPIRY, whatever count is left
(log 18), and OVERFLOW_WRITE_GRANT (R63): the held write asks the arbiter as an overflow write, of the present bt (log 6),
with WAIT as it is; at its grant the bytes are stored, a sequence number is skipped, mark-now is set and POST_OVERFLOW
recorded, and the queue is as it was. -/
def Obligations.TakenWritesAreMade : Prop :=
  (∀ (s : State) (c : LocalCycle) (w : WinId), s.lp.cycle = some c → c.stage = .allowedWrite w → c.a.toNat < 0x8000 →
    s.rm.arb.granted = some .localPort → Memory.wf s.rm.mem = true →
    let offset := s.windowOffset w c
    ∃ t : State, exec .localWriteGrant s = .next t ∧ Memory.stored s.rm.mem t.rm.mem c.addr c.bytes ∧
      t.pq.mergeHold = false ∧
      (s.pq.wouldMerge w (s.win w).nextSeq offset c.bytes.length = false →
        t.pq.entries = s.pq.entries ++ [{ window := w, seq := (s.win w).nextSeq, offset := BitVec.ofNat 16 offset,
                                          data := c.bytes, sealed := false }] ∧
        t.windows = s.windows.set w { s.win w with nextSeq := (s.win w).nextSeq + 1 }) ∧
      (s.pq.wouldMerge w (s.win w).nextSeq offset c.bytes.length = true →
        t.windows = s.windows ∧
        ∃ (front : List PostEntry) (e e' : PostEntry), s.pq.entries = front ++ [e] ∧ t.pq.entries = front ++ [e'] ∧
          e'.window = w ∧ e'.seq = e.seq ∧ e'.sealed = false ∧ e'.data.length ≤ 64 ∧
          (offset < 65536 →
            e'.offset.toNat = min offset e.offset.toNat ∧
            e'.offset.toNat + e'.data.length =
              max (offset + c.bytes.length) (e.offset.toNat + e.data.length) ∧
            ∀ i : Nat, e'.offset.toNat ≤ i → i < e'.offset.toNat + e'.data.length →
              e'.data.getD (i - e'.offset.toNat) 0 =
                if offset ≤ i ∧ i < offset + c.bytes.length then c.bytes.getD (i - offset) 0
                else e.data.getD (i - e.offset.toNat) 0)) ∧
      t = { s with lp := { s.lp with cycle := some { c with stage := .complete }, wait := false },
                   rm := { mem := t.rm.mem, arb := s.rm.arb.release }, pq := t.pq, windows := t.windows }) ∧
  (∀ (s : State) (c : LocalCycle) (w : WinId) (n : Nat), s.lp.cycle = some c → c.stage = .heldWrite w n →
    exec .postWaitExpiry s =
      .next { s with lp := { s.lp with cycle := some { c with stage := .overflowWrite w } },
                     rm := { s.rm with arb := s.rm.arb.request .localPort s.presentBt } }) ∧
  ∀ (s : State) (c : LocalCycle) (w : WinId), s.li.line.runs → s.lp.cycle = some c → c.stage = .overflowWrite w →
    c.a.toNat < 0x8000 → s.rm.arb.granted = some .localPort → Memory.wf s.rm.mem = true →
    ∃ t : State, exec .overflowWriteGrant s = .next t ∧ Memory.stored s.rm.mem t.rm.mem c.addr c.bytes ∧
      t = { s with
        lp := { s.lp with cycle := some { c with stage := .complete }, wait := false },
        rm := { mem := t.rm.mem, arb := s.rm.arb.release },
        windows := s.windows.set w { s.win w with nextSeq := (s.win w).nextSeq + 1, markNow := true },
        en := s.eventOf { cause := .postOverflow, window := some w, address := some (BitVec.ofNat 16 c.addr),
                          sequence := some (s.win w).nextSeq } }

/-- LOCAL_CYCLE_END of a completed access, and LOCAL_CYCLE_ABANDON while WAIT is asserted (R178): the cycle is over and
D[15:0] not driven; a write abandoned before its grant is not made, and its request, hold and merge hold end. A cycle
that ends while its own grant is in progress: the grant completes, a read's data are not driven, and a write is made as at
its own row. -/
def Obligations.LocalCyclesEnd : Prop :=
  (∀ (s : State) (c : LocalCycle) (i : Instr), s.lp.cycle = some c → s.rm.arb.granted = some .localPort →
    (i = .localCycleAbandon ∧ s.lp.wait = true) ∨ (i = .localCycleEnd ∧ s.lp.wait = false) →
    let idle (lp : LocalPort) : LocalPort :=
      { lp with cycle := none, wait := false, dataOut := { low := none, high := none } }
    (c.stage = .read → exec i s = .next { s with lp := idle s.lp, rm := { s.rm with arb := s.rm.arb.release } }) ∧
    (c.stage = .privateWrite ∨ (∃ w : WinId, c.stage = .allowedWrite w) →
      ∃ t : State, exec .localWriteGrant s = .next t ∧ exec i s = .next { t with lp := idle t.lp }) ∧
    ((∃ w : WinId, c.stage = .overflowWrite w) →
      ∃ t : State, exec .overflowWriteGrant s = .next t ∧ exec i s = .next { t with lp := idle t.lp })) ∧
  (∀ (s : State) (c : LocalCycle), s.lp.cycle = some c → c.stage = .complete → s.lp.wait = false →
    exec .localCycleEnd s =
      .next { s with lp := { s.lp with cycle := none, wait := false, dataOut := { low := none, high := none } } }) ∧
  ∀ (s : State) (c : LocalCycle), s.lp.cycle = some c → c.stage ≠ .complete → s.lp.wait = true →
    s.rm.arb.granted ≠ some .localPort →
    ∃ t : State, exec .localCycleAbandon s = .next t ∧
      t = { s with lp := { s.lp with cycle := none, wait := false, dataOut := { low := none, high := none } },
                   rm := { s.rm with arb := t.rm.arb }, pq := { s.pq with mergeHold := t.pq.mergeHold } } ∧
      (∀ (w : WinId) (n : Nat), c.stage = .heldWrite w n → t.rm = s.rm ∧ t.pq = s.pq) ∧
      (c.stage = .read → t.pq = s.pq) ∧
      ((∀ (w : WinId) (n : Nat), c.stage ≠ .heldWrite w n) → ∀ q ∈ t.rm.arb.waiting, q.who ≠ .localPort) ∧
      ((∃ w : WinId, c.stage = .allowedWrite w) → t.pq.mergeHold = false)

/-- The replica arbiter (R34, R35): a request at a free arbiter is granted at once; a choice gives the only waiting side
its grant, else the turn decides; of the internal requests the older is chosen, and of two placed in one bt the
writer's; a grant of one side turns the arbiter to the other. Requests carry the model's count of bt, and count 0 is of
no bt; one placed after a TRANSMIT_START and before its frame's first bit is of the bt that the frame begins in (log 6). -/
def Obligations.ArbiterServesByTurn : Prop :=
  (∀ b : Arbiter,
    (∀ (r : Requester) (n : Nat), b.granted = none →
      (b.request r n).granted = some r ∧
      (b.request r n).turn = if r = .localPort then .internalSide else .localSide) ∧
    (∀ (r g : Requester) (n : Nat), b.granted = some g →
      b.request r n = { b with waiting := b.waiting ++ [{ who := r, placed := n }] }) ∧
    (b.waiting = [] → b.release = { b with granted := none }) ∧
    (∀ q : Request, b.waiting = [q] →
      b.release = { turn := if q.who = .localPort then .internalSide else .localSide, granted := some q.who,
                    waiting := [] }) ∧
    (∀ p q : Request, b.waiting = [p, q] → (p.who = .localPort ∧ q.who ≠ .localPort) →
      b.release.granted = match b.turn with
        | .localSide => some .localPort
        | .internalSide => some q.who) ∧
    (∀ p q : Request, b.waiting = [p, q] → (p.who ≠ .localPort ∧ q.who = .localPort) →
      b.release.granted = match b.turn with
        | .localSide => some .localPort
        | .internalSide => some p.who) ∧
    (∀ p q : Request, b.waiting = [p, q] → p.who = .sweepReader → q.who = .writer →
      b.release.granted = if p.placed = q.placed ∧ p.placed ≠ 0 then some .writer else some .sweepReader) ∧
    (∀ p q : Request, b.waiting = [p, q] → p.who = .writer → q.who = .sweepReader → b.release.granted = some .writer)) ∧
  ∀ (s : State) (r : Requester),
    s.requestGrant r = { s with rm := { s.rm with arb := s.rm.arb.request r s.presentBt } } ∧
    (s.li.btCount = 0 → s.presentBt = 0) ∧
    (s.li.btCount ≠ 0 → (∃ o : OnLine, s.li.tx.onLine = some o ∧ o.sent = 0) → s.presentBt = s.li.btCount + 1) ∧
    ((∀ o : OnLine, s.li.tx.onLine = some o → o.sent ≠ 0) → s.presentBt = s.li.btCount)

/-! ### The internal writer's grants -/

/-- RECORD_WRITE_GRANT (R80, R84): the record's bytes are stored at its window offset and nothing else of the replica
changes; the expected sequence is incremented and the behind count 0. After the frame's last record the frame leaves the
hold with one update note; before another record in order the writer asks again. Addresses above 65535, which no record
inside its window has, wrap (log 22). -/
def Obligations.RecordsAreApplied : Prop :=
  ∀ (s : State) (w : WinId) (src : Station) (r : PostRecord) (rest : List PostRecord) (applied adopted : Bool),
    s.rh.work = some (.record w src r rest applied adopted) → s.rm.arb.granted = some .writer →
    r.data.length ≤ 64 → Memory.wf s.rm.mem = true → s.lp.cycle = none ∨ s.rh.slots.length ≤ 1 →
    ∃ t : State, exec .recordWriteGrant s = .next t ∧
      Memory.stored s.rm.mem t.rm.mem ((s.win w).localAddr r.offset.toNat) r.data ∧
      (rest = [] → s.rh.slots.length ≤ 1 → (∀ v : WinId, (s.win v).ownership ≠ .granting) →
        t = { s with rm := { mem := t.rm.mem, arb := s.rm.arb.release }, rh := { slots := [], work := none },
                     windows := s.windows.set w
                       { s.win w with expected := (s.win w).expected.map (· + 1), behind := 0, updated := true,
                                      updateCount := min 255 ((s.win w).updateCount + 1) },
                     en := if (s.win w).noteOccurs then
                         { s.en with pending := s.en.pending ||| (1 <<< (s.win w).desc.notifyVector.toNat) }
                       else s.en }) ∧
      (∀ (n : PostRecord) (more : List PostRecord) (e : Word), rest = n :: more →
        s.follows w → (s.win w).sync = .synced →
        (s.win w).expected = some e → n.seq = e + 1 → n.offset.toNat + n.data.length ≤ (s.win w).size →
        t.rh = { s.rh with work := some (.record w src n more true adopted) } ∧
        t.win w = { s.win w with expected := some (e + 1), behind := 0 } ∧
        t.en = s.en ∧ (t.rm.arb.granted = some .writer ∨ ∃ q ∈ t.rm.arb.waiting, q.who = .writer))

/-- PAGE_WRITE_GRANT and DEFERRED_RECORD_GRANT (R117, R121, R122): the page, or the record, is stored and nothing else of
the replica changes; the page's index joins the received-page set; after the last deferred record the refresh completes.
Addresses above 65535 wrap (log 22), and a new delay is of one bt at least (log 18). -/
def Obligations.RefreshWritesAreMade : Prop :=
  (∀ (s : State) (w : WinId) (i : Nat) (data : List Byte), s.rh.work = some (.page w i data) →
    s.rm.arb.granted = some .writer → data.length ≤ 256 → Memory.wf s.rm.mem = true →
    s.lp.cycle = none ∨ s.rh.slots.length ≤ 1 →
    ∃ t : State, exec .pageWriteGrant s = .next t ∧
      Memory.stored s.rm.mem t.rm.mem ((s.win w).localAddr (i * 256)) data ∧
      (s.rh.slots.length ≤ 1 → (∀ v : WinId, (s.win v).ownership ≠ .granting) →
        t = { s with rm := { mem := t.rm.mem, arb := s.rm.arb.release }, rh := { slots := [], work := none },
                     contexts := t.contexts } ∧
        ∀ (c : Fin 2) (b : Binding), s.boundCtx w = some c → s.ctx c = .bound b →
          (∀ j : Fin 2, j ≠ c → t.ctx j = s.ctx j) ∧
          ∃ pages : List Nat, t.ctx c = .bound { b with received := pages } ∧ ∀ p : Nat, p ∈ pages ↔ p ∈ b.received ∨ p = i)) ∧
  ∀ (s : State) (w : WinId) (r : PostRecord) (rest : List PostRecord), s.rh.work = some (.deferred w r rest) →
    s.rm.arb.granted = some .writer → r.data.length ≤ 64 → Memory.wf s.rm.mem = true →
    s.lp.cycle = none ∨ s.rh.slots.length ≤ 1 →
    ∃ t : State, exec .deferredRecordGrant s = .next t ∧
      Memory.stored s.rm.mem t.rm.mem ((s.win w).localAddr r.offset.toNat) r.data ∧
      (∀ (n : PostRecord) (more : List PostRecord), rest = n :: more →
        t.rh = { s.rh with work := some (.deferred w n more) } ∧
        t = { s with rm := t.rm, rh := t.rh }) ∧
      (∀ (c : Fin 2) (b : Binding) (a : Attempt), rest = [] → s.rh.slots.length ≤ 1 → s.boundCtx w = some c →
        s.ctx c = .bound b → b.attempt = some a → (s.win w).contextWait = false →
        t.rh = { slots := [], work := none } ∧ s.refreshEnds t w c b a)

/-! ### Frames for a window -/

/-- UPDATE, MARK and the frames of ownership by the window's role (R78, R127). A FOLLOW window takes an UPDATE or MARK
of its configured owner, whatever its generation, and drops another station's as FOREIGN; a CLAIM, GRANT, DENY or
TAKEOVER is FOREIGN there. At an OWN window each of the six is a CONFLICT with OWNERSHIP_CONFLICT. -/
def Obligations.RolesDecideFrames : Prop :=
  ∀ (s : State) (w : WinId) (src : Station) (b : Word) (g : Byte),
    ((s.win w).role = some .follow →
      (src = (s.win w).desc.owner →
        (∀ rs : List PostRecord, s.handleFor w src (.update b g rs) = s.takeRecords w src false false rs) ∧
        ∀ last : Word, s.handleFor w src (.mark b g last) = s.takeMark w src last false) ∧
      (src ≠ (s.win w).desc.owner → ∀ body : Body, body.isPosting = true →
        s.handleFor w src body = { s with en := s.en.bump .foreign 1 }) ∧
      ∀ body : Body, body.isOwnership = true → s.handleFor w src body = { s with en := s.en.bump .foreign 1 }) ∧
    ((s.win w).role = some .own → s.li.line.runs → ∀ body : Body, body.isPosting = true ∨ body.isOwnership = true →
      s.handleFor w src body =
        { s with en := s.eventIn (s.en.bump .conflict 1) { cause := .ownershipConflict, window := some w,
                                                           station := some src } })

/-- A received UPDATE record for a followed SYNCED window (R80, R82, R83), as its handling takes it: in order it waits
for the writer, its request of the present bt by the model's count (log 6); outside the window it is SIZE_MISMATCH and
STALE; ahead it is SEQ_GAP and GAP; behind it is counted and the next record is taken, and the fourth in a row is
RESTART_SUSPECTED and UNSYNCED, unless a newer generation was just adopted. A record that takes the window out of step ends
the frame, with an update note if a record was applied before it (R84). A MARK is compared so by its last sequence against
the number before the expected one (R85), one in step changing nothing. In UNSYNCED, GAP and STALE, and at a window that is
not followed, both are dropped (R76, R79), and a MARK in REFRESHING too. A new delay is of one bt at least (log 18). -/
def Obligations.RecordsAndMarksAreJudgedBySequence : Prop :=
  (∀ (s : State) (w : WinId) (src : Station) (r : PostRecord) (e : Word),
    s.follows w → (s.win w).sync = .synced →
    (s.win w).expected = some e → s.li.line.runs →
    (r.seq = e → r.offset.toNat + r.data.length ≤ (s.win w).size →
      ∀ (applied adopted : Bool) (rest : List PostRecord),
        s.takeRecords w src applied adopted (r :: rest) =
          { s with rh := { s.rh with work := some (.record w src r rest applied adopted) },
                   rm := { s.rm with arb := s.rm.arb.request .writer s.presentBt } }) ∧
    (r.seq = e → (s.win w).size < r.offset.toNat + r.data.length →
      ∀ (adopted : Bool) (rest : List PostRecord),
        ((s.takeRecords w src false adopted (r :: rest)).win w).sync = .stale ∧
        (s.takeRecords w src false adopted (r :: rest)).rm = s.rm ∧
        (s.takeRecords w src false adopted (r :: rest)).en =
          s.eventOf { cause := .sizeMismatch, window := some w, station := some src, sequence := some r.seq }) ∧
    (1 ≤ (r.seq - e).toNat → (r.seq - e).toNat ≤ 32767 →
      ∀ (adopted : Bool),
        ((s.takeRecords w src false adopted [r]).win w).sync = .gap ∧
        ((s.takeRecords w src false adopted [r]).win w).expected = some e ∧
        (s.takeRecords w src false adopted [r]).en =
          s.eventOf { cause := .seqGap, window := some w, station := some src, sequence := some e }) ∧
    (32768 ≤ (r.seq - e).toNat → (s.win w).behind < 3 →
      s.takeRecords w src false false [r] =
        { s with windows := s.windows.set w { s.win w with behind := (s.win w).behind + 1 } }) ∧
    (32768 ≤ (r.seq - e).toNat → (s.win w).behind = 3 →
      ((s.takeRecords w src false false [r]).win w).sync = .unsynced ∧
      ((s.takeRecords w src false false [r]).win w).expected = none ∧
      (s.takeRecords w src false false [r]).en =
        s.eventOf { cause := .restartSuspected, window := some w, station := some src, sequence := some r.seq }) ∧
    (32768 ≤ (r.seq - e).toNat →
      ((s.takeRecords w src false true [r]).win w).sync = .gap ∧
      (s.takeRecords w src false true [r]).en =
        s.eventOf { cause := .seqGap, window := some w, station := some src, sequence := some e }) ∧
    (32768 ≤ (r.seq - e).toNat → (s.win w).behind < 3 → ∀ (applied : Bool) (rest : List PostRecord),
      s.takeRecords w src applied false (r :: rest) =
        ({ s with windows := s.windows.set w { s.win w with behind := (s.win w).behind + 1 } } : State).takeRecords w src
          applied false rest) ∧
    ∀ adopted : Bool,
      (r.seq = e ∧ (s.win w).size < r.offset.toNat + r.data.length) ∨
        (1 ≤ (r.seq - e).toNat ∧ (r.seq - e).toNat ≤ 32767) ∨
        (32768 ≤ (r.seq - e).toNat ∧ (adopted = true ∨ (s.win w).behind = 3)) →
      ∀ (applied : Bool) (rest : List PostRecord),
        s.takeRecords w src applied adopted (r :: rest) =
          if applied then (s.takeRecords w src false adopted [r]).noted w else s.takeRecords w src false adopted [r]) ∧
  (∀ (s : State) (w : WinId) (src : Station) (last e : Word), s.follows w → (s.win w).sync = .synced →
    (s.win w).expected = some e → s.li.line.runs →
    let distance := (last - (e - 1)).toNat
    (∀ adopted : Bool, distance = 0 → s.takeMark w src last adopted = s) ∧
    (∀ adopted : Bool, (1 ≤ distance ∧ distance ≤ 32767) ∨ (32768 ≤ distance ∧ adopted = true) →
      (s.takeMark w src last adopted).win w = { s.win w with
        sync := .gap, gapOrigin := some .here, contextWait := false, wait := s.newDelay } ∧
      (s.takeMark w src last adopted).en =
        s.eventOf { cause := .seqGap, window := some w, station := some src, sequence := some e }) ∧
    (32768 ≤ distance → (s.win w).behind < 3 →
      s.takeMark w src last false =
        { s with windows := s.windows.set w { s.win w with behind := (s.win w).behind + 1 } }) ∧
    (32768 ≤ distance → (s.win w).behind = 3 →
      (s.takeMark w src last false).win w = { s.win w with
        sync := .unsynced, expected := none, gapOrigin := none, behind := 4, contextWait := false, wait := s.newDelay } ∧
      (s.takeMark w src last false).en =
        s.eventOf { cause := .restartSuspected, window := some w, station := some src, sequence := some last })) ∧
  (∀ (s : State) (w : WinId) (src : Station) (applied adopted : Bool),
    s.takeRecords w src applied adopted [] = if applied then s.noted w else s) ∧
  ∀ (s : State) (w : WinId) (src : Station) (last : Word) (rs : List PostRecord) (adopted : Bool),
    (¬s.follows w ∨ (s.win w).sync = .unsynced ∨ (s.win w).sync = .gap ∨ (s.win w).sync = .stale →
      s.takeRecords w src false adopted rs = s) ∧
    (¬s.follows w ∨ (s.win w).sync ≠ .synced → s.takeMark w src last adopted = s)

/-- Records of an UPDATE for a window in REFRESHING (R119, R120), each in turn and none of them written: before a BEGIN,
from another station than the attempt's, at or before the snapshot, or after an overflow or a gap it is dropped; outside
the window it is SIZE_MISMATCH and STALE; out of order it sets the deferred-gap flag with SEQ_GAP; with no room in 24
records and 1024 bytes it sets the overflow flag with DEFERRED_OVERFLOW; else it joins the deferred list. -/
def Obligations.RecordsDuringRefreshAreDeferred : Prop :=
  ∀ (s : State) (w : WinId) (src : Station) (adopted : Bool) (i : Fin 2) (b : Binding), s.follows w →
    (s.win w).sync = .refreshing → s.boundCtx w = some i → s.ctx i = .bound b → s.li.line.runs →
    (∀ (r : PostRecord) (rest : List PostRecord), s.takeRecords w src false adopted (r :: rest) =
      (s.takeRecords w src false adopted [r]).takeRecords w src false adopted rest) ∧
    ∀ r : PostRecord,
      let t := s.takeRecords w src false adopted [r]
      (b.attempt = none → t = s) ∧
      ∀ a : Attempt, b.attempt = some a →
        let next : Word := a.snapshot + 1 + BitVec.ofNat 16 b.deferred.length
        let bytes : Nat := (b.deferred.map fun x => x.data.length).sum + r.data.length
        let after : Prop := (r.seq - (a.snapshot + 1)).toNat < 32768
        (src ≠ a.owner ∨ ¬after ∨ b.overflow = true ∨ b.deferredGap = true → t = s) ∧
        (src = a.owner → after → b.overflow = false → b.deferredGap = false →
          ((s.win w).size < r.offset.toNat + r.data.length →
            t.win w = (s.win w).stale ∧ t.ctx i = .free ∧ t.rm = s.rm ∧ t.rh = s.rh ∧
            t.en = s.eventOf { cause := .sizeMismatch, window := some w, station := some src, sequence := some r.seq }) ∧
          (r.offset.toNat + r.data.length ≤ (s.win w).size →
            (r.seq ≠ next →
              t = { s with contexts := s.contexts.set i (.bound { b with deferredGap := true }),
                           en := s.eventOf { cause := .seqGap, window := some w, station := some src,
                                             sequence := some next } }) ∧
            (r.seq = next →
              (b.deferred.length = 24 ∨ 1024 < bytes →
                t = { s with contexts := s.contexts.set i (.bound { b with overflow := true }),
                             en := s.eventOf { cause := .deferredOverflow, window := some w, station := some src,
                                               sequence := some r.seq } }) ∧
              (b.deferred.length < 24 → bytes ≤ 1024 →
                t = { s with contexts := s.contexts.set i (.bound { b with deferred := b.deferred ++ [r] }) }))))

/-- A received REFRESH_REQ. At an OWNER it joins the sweep queue, or has a sweep that has begun sent again, or changes
nothing (R101); with another page count it is SIZE_MISMATCH. At a followed window in GAP or UNSYNCED, once ONLINE has
been entered and with no request of this station's own on the line, it binds a context with gap origin ALREADY (R91);
elsewhere it changes nothing. -/
def Obligations.RefreshRequestsAreAnswered : Prop :=
  ∀ (s : State) (w : WinId) (src : Station) (base : Word) (n : Byte),
    let t := s.handleFor w src (.refreshReq base n)
    ((s.win w).ownership = .owner →
      (n ≠ (s.win w).desc.pageCount → s.li.line.runs →
        t = { s with en := s.eventOf { cause := .sizeMismatch, window := some w, station := some src } }) ∧
      (n = (s.win w).desc.pageCount →
        (∀ c : Sweep, s.se.current = some c → c.window = w →
          t = { s with se := { s.se with current := some { c with again := c.again || c.sweepId.isSome } } }) ∧
        ((∀ c ∈ s.se.current, c.window ≠ w) →
          t = { s with se := if ∃ p ∈ s.se.queue, p.1 = w then s.se
                             else s.se.withQueue (s.se.queue ++ [(w, .requested)]) }))) ∧
    ((s.win w).ownership = .granting → t = s) ∧
    (s.follows w →
      let ownOnLine : Prop := ∃ f : OnLine, s.li.tx.onLine = some f ∧ f.source = .refreshReq w ∧ f.withdrawn = false
      let binds : Prop := n = (s.win w).desc.pageCount ∧ s.li.onlineSeen = true ∧ ¬ownOnLine ∧
        ((s.win w).sync = .gap ∨ (s.win w).sync = .unsynced)
      (¬binds ∨ (∀ i : Fin 2, ¬s.bindsContext w i) → t = s) ∧
      (binds → ∀ i : Fin 2, s.bindsContext w i →
        t = { s with
          contexts := s.contexts.set i (.bound (Binding.begun w (s.win w).pages none)),
          windows := s.windows.set w { s.win w with
            sync := .refreshing, gapOrigin := some .already, contextWait := false,
            wait := .refreshTimeout (s.lp.params.refreshTimeout * 1024) } }))

/-- A received SWEEP_BEGIN (R97, R114 to R116): taken only at a followed window and from its recorded owner, another
station's being FOREIGN. A window in UNSYNCED, GAP or STALE, or in SYNCED at a START sweep, joins once ONLINE has been
entered: it binds a context with gap origin ALREADY, its own request withdrawn, and the attempt begins; with no context
a SYNCED window goes to UNSYNCED with RESTART_SUSPECTED. In REFRESHING the attempt begins anew. Another page count is
SIZE_MISMATCH and STALE, the retry count as it was. A new delay is of one bt at least (log 18). -/
def Obligations.SweepBeginIsTaken : Prop :=
  ∀ (s : State) (w : WinId) (src : Station) (base : Word) (g id : Byte) (sn : Word) (n : Byte) (o : Origin),
    let t := s.handleFor w src (.sweepBegin base g id sn n o)
    let attempt : Attempt := { owner := src, sweepId := id, snapshot := sn }
    let timeout : WaitTimer := .refreshTimeout (s.lp.params.refreshTimeout * 1024)
    let joins : Prop := (s.win w).sync = .unsynced ∨ (s.win w).sync = .gap ∨ (s.win w).sync = .stale ∨
      ((s.win w).sync = .synced ∧ o = .start)
    let mismatch (i : Fin 2) : Prop := t.win w = (s.win w).stale ∧ t.ctx i = .free ∧ t.rm = s.rm ∧ t.rh = s.rh ∧
      t.en = s.eventOf { cause := .sizeMismatch, window := some w, station := some src }
    (¬s.follows w → t = s) ∧
    (s.follows w → src ≠ (s.win w).recordedOwner → t = { s with en := s.en.bump .foreign 1 }) ∧
    (s.follows w → src = (s.win w).recordedOwner → s.li.line.runs →
      ((s.win w).sync = .synced → o ≠ .start → t = s) ∧
      (joins → s.li.onlineSeen = false → t = s) ∧
      (joins → s.li.onlineSeen = true → s.boundCtx w = none →
        (∀ i : Fin 2, s.bindsContext w i →
          (n.toNat = (s.win w).pages →
            t = { s with
              li := { s.li with tx := t.li.tx },
              contexts := s.contexts.set i (.bound (Binding.begun w (s.win w).pages (some attempt))),
              windows := s.windows.set w { s.win w with sync := .refreshing, gapOrigin := some .already,
                                                        contextWait := false, wait := timeout } }) ∧
          (n.toNat ≠ (s.win w).pages → mismatch i) ∧
          (∀ f : OnLine, t.li.tx.onLine = some f → f.source = .refreshReq w → s.ctx i = .reserved w →
            f.withdrawn = true) ∧
          ((∀ f : OnLine, s.li.tx.onLine = some f → f.source ≠ .refreshReq w) → t.li.tx = s.li.tx)) ∧
        ((∀ i : Fin 2, ¬s.bindsContext w i) →
          ((s.win w).sync ≠ .synced → t = s) ∧
          ((s.win w).sync = .synced →
            t = { s with
              windows := s.windows.set w { s.win w with sync := .unsynced, expected := none, gapOrigin := none,
                                                        contextWait := false, wait := s.newDelay },
              en := s.eventOf { cause := .restartSuspected, window := some w, station := some src,
                                sequence := some sn } }))) ∧
      (∀ (i : Fin 2) (b : Binding), (s.win w).sync = .refreshing → s.boundCtx w = some i → s.ctx i = .bound b →
        (n.toNat = b.pageCount →
          t = { s with contexts := s.contexts.set i (.bound (Binding.begun w b.pageCount (some attempt))),
                       windows := s.windows.set w { s.win w with wait := timeout } }) ∧
        (n.toNat ≠ b.pageCount → mismatch i)))

/-- A received SWEEP_DATA or SWEEP_END (R114, R117, R121 to R123): dropped as FOREIGN when it is not the recorded
owner's, and ignored unless the window is followed and REFRESHING and the frame matches the attempt's owner and sweep
id. A matching page inside the window restarts the refresh timeout and waits for the writer. A matching END stops it: an
abandoned sweep or a missing page fails the attempt; else the first deferred record waits for the writer, or with none
the refresh completes (logs 12, 14 and 18). The writer's request is of the present bt by the model's count (log 6). -/
def Obligations.SweepDataAndEndAreTaken : Prop :=
  ∀ (s : State) (w : WinId) (src : Station) (base : Word) (id : Byte),
    (∀ body : Body, (∃ (p : Byte) (d : List Byte), body = .sweepData base id p d) ∨
        (∃ (n : Byte) (x : Bool), body = .sweepEnd base id n x) →
      (¬s.follows w → s.handleFor w src body = s) ∧
      (s.follows w → src ≠ (s.win w).recordedOwner → s.handleFor w src body = { s with en := s.en.bump .foreign 1 }) ∧
      (s.follows w → src = (s.win w).recordedOwner → (s.win w).sync ≠ .refreshing → s.handleFor w src body = s) ∧
      (s.follows w → src = (s.win w).recordedOwner → ∀ (i : Fin 2) (b : Binding), s.boundCtx w = some i →
        s.ctx i = .bound b → (∀ a : Attempt, b.attempt = some a → ¬(a.owner = src ∧ a.sweepId = id)) →
        s.handleFor w src body = s)) ∧
    ∀ (i : Fin 2) (b : Binding) (a : Attempt), s.follows w → src = (s.win w).recordedOwner →
      (s.win w).sync = .refreshing → s.boundCtx w = some i → s.ctx i = .bound b → b.attempt = some a → a.owner = src →
      a.sweepId = id →
      (∀ (p : Byte) (d : List Byte),
        (b.pageCount ≤ p.toNat → s.handleFor w src (.sweepData base id p d) = s) ∧
        (p.toNat < b.pageCount →
          s.handleFor w src (.sweepData base id p d) =
            { s with windows := s.windows.set w { s.win w with
                       wait := .refreshTimeout (s.lp.params.refreshTimeout * 1024) },
                     rh := { s.rh with work := some (.page w p.toNat d) },
                     rm := { s.rm with arb := s.rm.arb.request .writer s.presentBt } })) ∧
      ∀ (n : Byte) (abandoned : Bool),
        let t := s.handleFor w src (.sweepEnd base id n abandoned)
        let whole : Prop := ∀ p : Nat, p < b.pageCount → p ∈ b.received
        (abandoned = true ∨ ¬whole → s.li.line.runs → s.attemptFails t w i b ∧ t.rm = s.rm ∧ t.rh = s.rh) ∧
        (abandoned = false → whole → ∀ (r : PostRecord) (rest : List PostRecord), b.deferred = r :: rest →
          t = { s with windows := s.windows.set w { s.win w with wait := .stopped },
                       rh := { s.rh with work := some (.deferred w r rest) },
                       rm := { s.rm with arb := s.rm.arb.request .writer s.presentBt } }) ∧
        (abandoned = false → whole → b.deferred = [] → (s.win w).contextWait = false →
          s.refreshEnds t w i b a ∧ t.rm = s.rm ∧ t.rh = s.rh)

/-- A CLAIM for a SHARE window (R138, R139, R140) as its handling takes it: the owner grants, its sweep is abandoned
(R110) and its DENYs are withdrawn, every other due frame staying; or with the keep flag it makes a DENY due once; any
other state ignores it. A taken local write of the window that waits is refused at the hand-over (R58), LOCAL_WRITE_REFUSED
naming the recorded owner (log 14); one whose grant is in progress is made first (R34, log 5). -/
def Obligations.ClaimFramesAreJudged : Prop :=
  ∀ (s : State) (w : WinId) (src : Station) (b : Word), (s.win w).role = some .share →
    ((s.win w).ownership = .owner → (s.win w).keep = false →
      let t := s.handleFor w src (.claim b)
      let granting : Window := { s.win w with
        ownership := .granting, grantee := some src, returned := false, markTimer := .stopped }
      s.abandons t w ∧
      t.ownerDue = s.ownerDue.filter (fun x => match x with
        | .deny v _ => decide (v ≠ w)
        | .grant _ | .takeover _ _ _ | .claim _ => true) ∧
      s.withdraws t (fun src => ∃ x : Station, src = .deny w x) ∧
      ((∀ c : LocalCycle, s.lp.cycle = some c → c.stage.takenFor ≠ some w) →
        t = { s with li := { s.li with tx := t.li.tx }, windows := s.windows.set w granting, se := t.se,
                     ownerDue := t.ownerDue }) ∧
      (∀ c : LocalCycle, s.li.line.runs → s.lp.cycle = some c → c.stage.takenFor = some w →
        s.rm.arb.granted ≠ some .localPort →
        t = { s with li := { s.li with tx := t.li.tx }, windows := s.windows.set w granting, se := t.se,
                     ownerDue := t.ownerDue, rm := { s.rm with arb := t.rm.arb }, pq := { s.pq with mergeHold := false },
                     lp := { s.lp with cycle := some { c with stage := .complete }, wait := false },
                     en := s.eventOf { cause := .localWriteRefused, window := some w,
                                       station := some (s.win w).recordedOwner,
                                       address := some (BitVec.ofNat 16 c.addr) } } ∧
        t.rm.arb = { s.rm.arb with waiting := s.rm.arb.waiting.filter fun q => decide (q.who ≠ .localPort) }) ∧
      ∀ s1 : State, s.finishesWrite s1 w → t = s1.handleFor w src (.claim b)) ∧
    ((s.win w).ownership = .owner → (s.win w).keep = true →
      s.handleFor w src (.claim b) =
        { s with ownerDue := if OwnerFrame.deny w src ∈ s.ownerDue then s.ownerDue else s.ownerDue ++ [.deny w src] }) ∧
    ((s.win w).ownership ≠ .owner → s.handleFor w src (.claim b) = s)

/-- R141: a DENY for a SHARE window is taken when the window is CLAIMING, the target is this station and the source is the
recorded owner; the window then goes to FOLLOWER (R137) with CLAIM_DENIED, its sync state, recorded owner and generation
as they were; in every other case it is ignored. -/
def Obligations.DenyFramesEndClaims : Prop :=
  ∀ (s : State) (w : WinId) (src target : Station) (b : Word), s.li.line.runs → (s.win w).role = some .share →
    ((s.win w).ownership = .claiming → target = s.station → src = (s.win w).recordedOwner →
      let t := s.handleFor w src (.deny b target)
      t.win w = { s.win w with ownership := .follower, claimAttempts := 0, claimTimer := .stopped } ∧
      (∀ v : WinId, v ≠ w → t.win v = s.win v) ∧ OwnerFrame.claim w ∉ t.ownerDue ∧
      (∀ x ∈ s.ownerDue, x ≠ .claim w → x ∈ t.ownerDue) ∧
      t.en = s.eventOf { cause := .claimDenied, window := some w, station := some src } ∧
      t = { s with li := { s.li with tx := t.li.tx }, windows := t.windows, ownerDue := t.ownerDue, en := t.en }) ∧
    (¬((s.win w).ownership = .claiming ∧ target = s.station ∧ src = (s.win w).recordedOwner) →
      s.handleFor w src (.deny b target) = s)

/-- A GRANT naming this station for a SHARE window in FOLLOWER or CLAIMING (R129, R145 to R147): in step it makes the window
OWNER with OWNERSHIP_GAINED; out of step it is sent back, or, when it was already returned, accepted with FORCED_OWNERSHIP
and a FORCED sweep asked for (R103). A claim ends by it (R137), and a bound or reserved context of the window is freed (R90,
R124, R144; a new delay is of one bt at least, log 18). An older generation is dropped as FOREIGN. -/
def Obligations.GrantFramesHandOver : Prop :=
  ∀ (s : State) (w : WinId) (src : Station) (b : Word) (g : Byte) (q : Word) (returned : Bool),
    s.li.line.runs → (s.win w).role = some .share → s.follows w →
    let t := s.handleFor w src (.grant b g q s.station returned)
    let left : Window := { s.win w with
      recordedOwner := s.station, generation := g, nextSeq := q, wait := .stopped, contextWait := false,
      claimAttempts := if (s.win w).ownership = .claiming then 0 else (s.win w).claimAttempts,
      claimTimer := if (s.win w).ownership = .claiming then .stopped else (s.win w).claimTimer,
      sync := if s.boundCtx w = none then (s.win w).sync else .gap,
      gapOrigin := if s.boundCtx w = none then (s.win w).gapOrigin else some .here }
    let owner : Window := { left with ownership := .owner, retry := 0, markTimer := s.freshMarkTimer }
    let passes : Prop := (1 ≤ (g - (s.win w).generation).toNat ∧ (g - (s.win w).generation).toNat ≤ 127) ∨
      (g = (s.win w).generation ∧ s.station.toNat ≤ (s.win w).recordedOwner.toNat)
    let inStep : Prop := (s.win w).sync = .synced ∧ (s.win w).expected = some q
    (¬passes → t = { s with en := s.en.bump .foreign 1 }) ∧
    (passes →
      s.leavesFollowed t w ∧
      t = { s with li := { s.li with tx := t.li.tx }, windows := t.windows, contexts := t.contexts,
                   ownerDue := t.ownerDue, en := t.en, se := t.se }) ∧
    (passes → inStep →
      t.win w = owner ∧ t.se = s.se ∧
      t.en = s.eventOf { cause := .ownershipGained, window := some w, station := some src, sequence := some q }) ∧
    (passes → ¬inStep → returned = false →
      t.win w = { left with ownership := .granting, grantee := some src, returned := true } ∧ t.se = s.se ∧
      t.en = s.en) ∧
    (passes → ¬inStep → returned = true →
      t.win w = owner ∧ s.asksSweep t w .forced ∧
      t.en = s.eventOf { cause := .forcedOwnership, window := some w, station := some src, sequence := some q })

/-- The check of frames that name another owner (R129, R131), on a MARK or an UPDATE for a SHARE window: a follower
adopts a newer generation, or an equal one of a lower station, and takes the frame's records or mark with the adopted-
generation fact (R79, R130), an UPDATE restarting a running claim timer (R135); it drops the rest as FOREIGN. At an
owner the frame wins by a newer generation, or an equal one of a lower station than this one, and the window yields
(R132, State.yields: a new delay of one bt at least, log 18, and its events in log 14's order), a taken local write whose
grant is in progress being made first (R34, log 5); else it is a CONFLICT and sets mark-now. -/
def Obligations.GenerationsDecideOwners : Prop :=
  ∀ (s : State) (w : WinId) (src : Station) (b : Word) (g : Byte) (last : Word) (rs : List PostRecord),
    s.li.line.runs → (s.win w).role = some .share →
    let newer : Prop := 1 ≤ (g - (s.win w).generation).toNat ∧ (g - (s.win w).generation).toNat ≤ 127
    let passes : Prop := newer ∨ (g = (s.win w).generation ∧ src.toNat ≤ (s.win w).recordedOwner.toNat)
    let wins : Prop := newer ∨ (g = (s.win w).generation ∧ src.toNat < s.station.toNat)
    (s.follows w →
      (¬passes → ∀ body : Body, body = .mark b g last ∨ body = .update b g rs →
        s.handleFor w src body = { s with en := s.en.bump .foreign 1 }) ∧
      (passes → ∀ adopted : Bool, (adopted = true ↔ newer) →
        s.handleFor w src (.mark b g last) =
          ({ s with windows := s.windows.set w { s.win w with recordedOwner := src, generation := g } } : State).takeMark w
            src last adopted ∧
        s.handleFor w src (.update b g rs) =
          ({ s with windows := s.windows.set w { s.win w with
              recordedOwner := src, generation := g,
              claimTimer := if (s.win w).ownership = .claiming ∧ (s.win w).claimTimer ≠ .stopped then
                  .running (s.lp.params.claimTimeout * 1024) else (s.win w).claimTimer } } : State).takeRecords w src false
            adopted rs)) ∧
    ((s.win w).ownership = .owner ∨ (s.win w).ownership = .granting →
      ∀ body : Body, body = .mark b g last ∨ body = .update b g rs →
        let t := s.handleFor w src body
        (wins → s.yields t w src g src ∧ ∀ s1 : State, s.finishesWrite s1 w → t = s1.handleFor w src body) ∧
        (¬wins →
          t = { s with windows := s.windows.set w { s.win w with markNow := true }, en := s.en.bump .conflict 1 }))

/-- A GRANT naming another station, or a TAKEOVER, for a SHARE window (R148, R151), the owner it names being the grantee
or the source. An owning window judges it as R131 has it: it yields, or counts a CONFLICT and sets mark-now. A followed
window drops it as FOREIGN by R129, or adopts the owner and the generation; a claim ends with CLAIM_LOST, and a window
SYNCED at another number than the frame's goes to GAP with SEQ_GAP, recorded in that order (log 14), and a new delay. A new
delay, here and at a yield, is of one bt at least (log 18); a yield records its events in log 14's order (State.yields), and
a taken local write whose grant is in progress is made before it (R34, log 5). A GRANT naming this station at a window it already owns changes the generation, or is a CONFLICT when it is older (R145). -/
def Obligations.GrantsElsewhereAndTakeovers : Prop :=
  ∀ (s : State) (w : WinId) (src : Station) (b : Word) (g : Byte) (q : Word), s.li.line.runs →
    (s.win w).role = some .share →
    (∀ (body : Body) (named : Station),
      (body = .takeover b g q ∧ named = src) ∨ (∃ r : Bool, body = .grant b g q named r ∧ named ≠ s.station) →
      let t := s.handleFor w src body
      let newer : Prop := 1 ≤ (g - (s.win w).generation).toNat ∧ (g - (s.win w).generation).toNat ≤ 127
      let passes : Prop := newer ∨ (g = (s.win w).generation ∧ named.toNat ≤ (s.win w).recordedOwner.toNat)
      let wins : Prop := newer ∨ (g = (s.win w).generation ∧ named.toNat < s.station.toNat)
      let adopted : Window := { s.win w with
        ownership := .follower, recordedOwner := named, generation := g,
        claimAttempts := if (s.win w).ownership = .claiming then 0 else (s.win w).claimAttempts,
        claimTimer := if (s.win w).ownership = .claiming then .stopped else (s.win w).claimTimer }
      let afterClaim : EventUnit := if (s.win w).ownership = .claiming then
        s.eventOf { cause := .claimLost, window := some w, station := some named } else s.en
      let breaks : Prop := (s.win w).sync = .synced ∧ (s.win w).expected ≠ some q
      (s.follows w → ¬passes → t = { s with en := s.en.bump .foreign 1 }) ∧
      (s.follows w → passes →
        t.ownerDue = (if (s.win w).ownership = .claiming then s.ownerDue.filter (fun x => decide (x ≠ .claim w))
          else s.ownerDue) ∧
        (¬breaks → t = { s with li := { s.li with tx := t.li.tx }, windows := s.windows.set w adopted,
                                ownerDue := t.ownerDue, en := afterClaim }) ∧
        (breaks →
          t.win w = { adopted with sync := .gap, gapOrigin := some .here, contextWait := false, wait := s.newDelay } ∧
          t.en = s.eventIn afterClaim { cause := .seqGap, window := some w, station := some src,
                                        sequence := (s.win w).expected } ∧
          t.rm = s.rm ∧ t.rh = s.rh ∧ t.pq = s.pq ∧ t.se = s.se)) ∧
      ((s.win w).ownership = .owner ∨ (s.win w).ownership = .granting →
        (wins → s.yields t w named g src ∧ ∀ s1 : State, s.finishesWrite s1 w → t = s1.handleFor w src body) ∧
        (¬wins →
          t = { s with windows := s.windows.set w { s.win w with markNow := true }, en := s.en.bump .conflict 1 }))) ∧
    ∀ r : Bool, (s.win w).ownership = .owner ∨ (s.win w).ownership = .granting →
      s.handleFor w src (.grant b g q s.station r) =
        if 128 ≤ (g - (s.win w).generation).toNat then { s with en := s.en.bump .conflict 1 }
        else { s with windows := s.windows.set w { s.win w with generation := g } }

/-! ### Commands -/

/-- R20 and R22: LINE_HALT and LINE_RESUME, in each line state. -/
def Obligations.LineHaltAndResume : Prop :=
  ∀ s : State, s.idlePort →
    exec .lineHalt s =
      .next (if s.li.line = .online then ({ s with li := { s.li with line := .halted } } : State).answersDone 0x000B
             else s.answersRefused 0x000B .wrongState) ∧
    exec .lineResume s =
      .next (match s.li.line with
        | .halted => ({ s with li := { s.li with line := .online } } : State).answersDone 0x000C
        | .faulted =>
          ({ s with li := { s.li with line := .listen, faults := 0, recoveryTimer := .stopped,
                                      joinTimer := .running (s.lp.params.joinInterval * 1024) } } : State).answersDone
            0x000C
        | .online | .listen | .offline | .configFailed => s.answersRefused 0x000C .wrongState)

/-- R95 and R96: REFRESH by the window's state. A DONE REFRESH, with no record of the window in handling, sends it to GAP
with a new delay, of one bt at least (log 18), its expected sequence and behind count kept. -/
def Obligations.RefreshCommand : Prop :=
  ∀ s : State, s.idlePort →
    (s.namesNone s.lp.args[0] → exec .refresh s = .next (s.answersRefused 0x0001 .badWindow)) ∧
    ∀ w : WinId, s.names s.lp.args[0] w →
      ((s.win w).ownership = .owner ∨ (s.win w).ownership = .granting →
        exec .refresh s = .next (s.answersRefused 0x0001 .wrongRole)) ∧
      (s.follows w →
        ((s.win w).sync = .refreshing → exec .refresh s = .next (s.answersRefused 0x0001 .wrongState)) ∧
        ((s.win w).sync ≠ .refreshing →
          (∃ t : State, exec .refresh s = .next t ∧ t.lp = (s.answersDone 0x0001).lp) ∧
          ((∀ k : Work, s.rh.work = some k → k.window ≠ w) → (s.rh.work = none → s.rh.slots = []) →
            ∃ t : State, exec .refresh s = .next t ∧
              t.win w = { s.win w with
                retry := 0, sync := .gap, gapOrigin := some .here, contextWait := false,
                wait := s.newDelay } ∧
              (∀ i : Fin 2, s.reservedCtx w = some i → t.ctx i = .free) ∧
              t = { s with li := { s.li with tx := t.li.tx }, windows := t.windows, contexts := t.contexts,
                           lp := (s.answersDone 0x0001).lp })))

/-- R133, with R48's check of the window argument first: CLAIM by the window's role and state; a DONE CLAIM starts a claim
(R134), and the CLAIM it makes due waits while the line state is not ONLINE. -/
def Obligations.ClaimCommand : Prop :=
  (∀ s : State, s.li.line ≠ .online → exec .transmitStart s = .next s) ∧
  ∀ s : State, s.idlePort →
    (s.namesNone s.lp.args[0] → exec .claim s = .next (s.answersRefused 0x0002 .badWindow)) ∧
    ∀ w : WinId, s.names s.lp.args[0] w →
      ((s.win w).role ≠ some .share → exec .claim s = .next (s.answersRefused 0x0002 .wrongRole)) ∧
      ((s.win w).role = some .share →
        ((s.win w).ownership ≠ .follower → exec .claim s = .next (s.answersRefused 0x0002 .wrongState)) ∧
        ((s.win w).ownership = .follower →
          ((s.win w).sync ≠ .synced → exec .claim s = .next (s.answersRefused 0x0002 .notSynced)) ∧
          ((s.win w).sync = .synced →
            exec .claim s =
              .next (({ s with
                windows := s.windows.set w { s.win w with ownership := .claiming, claimAttempts := 1,
                                                          claimTimer := .stopped },
                ownerDue := s.ownerDue ++ [.claim w] } : State).answersDone 0x0002))))

/-- KEEP (R48, R140), ACK_UPDATES (R172), NOTIFY_ACK (R174), CLEAR_EVENT (R167) and CLEAR_COUNTERS (R170): each changes
what its rule names and nothing else. PROBE (R47), MESSAGE_SEND (R155), MESSAGE_POP (R161) and a code that names no
command (R182). -/
def Obligations.SettingMessageAndProbeCommands : Prop :=
  ∀ s : State, s.idlePort →
    (s.namesNone s.lp.args[0] → exec .keep s = .next (s.answersRefused 0x0003 .badWindow)) ∧
    (∀ w : WinId, s.names s.lp.args[0] w →
      exec .keep s =
        .next (if (s.win w).role ≠ some .share then s.answersRefused 0x0003 .wrongRole
               else if s.lp.args[1] = 0 then
                 ({ s with windows := s.windows.set w { s.win w with keep := false } } : State).answersDone 0x0003
               else if s.lp.args[1] = 1 then
                 ({ s with windows := s.windows.set w { s.win w with keep := true } } : State).answersDone 0x0003
               else s.answersRefused 0x0003 .badArgument)) ∧
    (∃ t : State, exec .ackUpdates s = .next t ∧
      (∀ w : WinId, t.win w =
        if s.lp.args[0].getLsbD w.val then { s.win w with updated := false, updateCount := 0 } else s.win w) ∧
      t = ({ s with windows := t.windows } : State).answersDone 0x0004) ∧
    (∃ t : State, exec .notifyAck s = .next t ∧
      (∀ v : Fin 4, t.en.pending.getLsbD v.val = (s.en.pending.getLsbD v.val && !s.lp.args[0].getLsbD v.val)) ∧
      t = ({ s with en := { s.en with pending := t.en.pending } } : State).answersDone 0x0005) ∧
    exec .clearEvent s =
      .next (({ s with en := { s.en with captureHold := false, moreEvents := 0, summary := 0 } } : State).answersDone
        0x0006) ∧
    exec .clearCounters s =
      .next (({ s with en := { s.en with counters := Vector.replicate 12 0, sticky := 0 } } : State).answersDone 0x0007) ∧
    (15 < s.lp.args[0].toNat → exec .probe s = .next (s.answersRefused 0x0008 .badArgument)) ∧
    (s.lp.args[0].toNat ≤ 15 →
      let holds (e : LineMapEntry) : Prop := e.domain.toNat = s.lp.args[0].toNat ∧
        e.lineBase.toNat ≤ s.lp.args[1].toNat ∧ s.lp.args[1].toNat < e.lineBase.toNat + e.pageCount.toNat
      ((∀ e ∈ s.maps.lineMap, ¬holds e) → exec .probe s = .next (s.answersDone 0x0008)) ∧
      (∀ (e : LineMapEntry) (front back : List LineMapEntry), s.maps.lineMap = front ++ e :: back →
        (∀ x ∈ front, ¬holds x) → holds e →
        exec .probe s =
          .next { s with lp := (s.lp.answered 0x0008 .done .none
            { found := true, window := e.window, pageIndex := s.lp.args[1].toNat - e.lineBase.toNat,
              localPage := (s.win e.window).desc.localBase.toNat +
                (s.lp.args[1].toNat - e.lineBase.toNat) } : LocalPort) })) ∧
    (let m := s.mu.staging
     let legal : Prop := 1 ≤ m.destination.toNat ∧ m.destination.toNat ≤ 31 ∧ m.destination ≠ s.station ∧
       1 ≤ m.urgency.toNat ∧ m.urgency.toNat ≤ 3 ∧ m.length.toNat ≤ 32
     (¬s.li.line.runs → exec .messageSend s = .next (s.answersRefused 0x0009 .wrongState)) ∧
     (s.li.line.runs → ¬legal → exec .messageSend s = .next (s.answersRefused 0x0009 .badArgument)) ∧
     (s.li.line.runs → legal → 4 ≤ s.mu.outQueue.length →
       exec .messageSend s = .next (s.answersRefused 0x0009 .full)) ∧
     (s.li.line.runs → legal → s.mu.outQueue.length < 4 →
       exec .messageSend s =
         .next (({ s with mu := { s.mu with outQueue := s.mu.outQueue ++
           [{ destination := m.destination, urgency := m.urgency, kind := m.kind, subkind := m.subkind,
              payload := m.payload.toList.take m.length.toNat }] } } : State).answersDone 0x0009))) ∧
    (s.mu.inFifo = [] → exec .messagePop s = .next (s.answersRefused 0x000A .empty)) ∧
    (∀ (m : InMessage) (rest : List InMessage), s.mu.inFifo = m :: rest →
      exec .messagePop s = .next (({ s with mu := { s.mu with inFifo := rest } } : State).answersDone 0x000A)) ∧
    ∀ code : Word, code = 0 ∨ 13 < code.toNat →
      exec (.unknownCommand code) s = .next (s.answersRefused code .badArgument)

/-- SOFT_RESTART (R190): refused with WRONG_STATE in OFFLINE and CONFIG_FAILED. Taken, it changes every block as its
rule says. The line: the frame on it ended, LISTEN with the join timer (R23). The hold, the post queue with its
POSTS_DISCARDED and mark-now flags (R73), the out queue (R157), the status capture (R52), the sweep queue and the
current sweep (R112) and the sweep reader's request (R37) are emptied. Bound contexts are free, their windows in GAP
with a new delay of one bt at least (R98, R124, log 18), and so are the delays of windows in context wait then (R90);
reservations stay, but for a bound window's. GRANTING becomes OWNER, a returner with FORCED_OWNERSHIP and a FORCED
sweep; CLAIMING becomes FOLLOWER; only TAKEOVERs stay due (R152). Everything else of the windows stays, the retry count
too (R50, R93), but for what the write of the frame in handling changed; with no write granted the replica stays (R31).
-/
def Obligations.SoftRestart : Prop :=
  ∀ s : State, s.idlePort →
    (¬s.li.line.runs → exec .softRestart s = .next (s.answersRefused 0x000D .wrongState)) ∧
    (s.li.line.runs →
      let isBound (w : WinId) : Prop := ∃ (i : Fin 2) (b : Binding), s.ctx i = .bound b ∧ b.window = w
      let frees : Prop := ∃ (i : Fin 2) (b : Binding), s.ctx i = .bound b
      let returners : List WinId := allWindows.filter fun w =>
        decide ((s.win w).ownership = .granting) && (s.win w).returned
      let discarded : EventUnit := if s.pq.entries = [] then s.en
        else s.eventIn (s.en.bump .postsDiscarded s.pq.entries.length) { cause := .postsDiscarded }
      ∃ t : State, exec .softRestart s = .next t ∧
        t.li = { s.li with tx := .idle, rx := .hunt none, yield := false, faults := 0, recoveryTimer := .stopped,
                           line := .listen, joinTimer := .running (s.lp.params.joinInterval * 1024) } ∧
        t.rh = { slots := [], work := none } ∧ t.pq = { entries := [], mergeHold := false } ∧
        t.se = ({ s.se with queue := [], current := none } : SweepEngine).withQueue (returners.map fun w => (w, .forced)) ∧
        t.ownerDue = s.ownerDue.filter (fun x => match x with
          | .takeover _ _ _ => true
          | .grant _ | .deny _ _ | .claim _ => false) ∧
        t.mu = { s.mu with outQueue := [] } ∧ t.lp = { (s.answersDone 0x000D).lp with capture := none } ∧
        t.maps = s.maps ∧ t.pending = s.pending ∧
        t.en.counters = discarded.counters ∧ t.en.sticky = discarded.sticky ∧
        (s.rh.work = none → t.en = returners.foldl (fun e w => s.eventIn e
          { cause := .forcedOwnership, window := some w, station := (s.win w).grantee,
            sequence := some (s.win w).nextSeq }) discarded) ∧
        (∀ i : Fin 2, (∀ b : Binding, s.ctx i = .bound b → t.ctx i = .free) ∧
          (∀ w : WinId, s.ctx i = .reserved w → (isBound w → t.ctx i = .free) ∧ (¬isBound w → t.ctx i = .reserved w)) ∧
          (s.ctx i = .free → t.ctx i = .free)) ∧
        (∀ w : WinId,
          let x := s.win w
          let y := t.win w
          y = { x with
            ownership := (match x.ownership with
              | .owner | .granting => .owner
              | .follower | .claiming => .follower),
            grantee := if x.ownership = .granting then none else x.grantee,
            returned := if x.ownership = .granting then false else x.returned,
            markTimer := if x.ownership = .granting then s.freshMarkTimer else x.markTimer,
            claimAttempts := if x.ownership = .claiming then 0 else x.claimAttempts,
            claimTimer := if x.ownership = .claiming then .stopped else x.claimTimer,
            markNow := x.markNow || s.pq.entries.any (fun e => decide (e.window = w)),
            sync := y.sync, gapOrigin := y.gapOrigin, wait := y.wait, contextWait := y.contextWait,
            expected := y.expected, behind := y.behind, updated := y.updated, updateCount := y.updateCount } ∧
          (isBound w → y.sync = .gap ∧ y.gapOrigin = some .here ∧ y.wait = s.newDelay ∧ y.contextWait = false) ∧
          (¬isBound w → y.sync = x.sync ∧ y.gapOrigin = x.gapOrigin ∧
            (x.contextWait = true → frees → y.wait = s.newDelay ∧ y.contextWait = false) ∧
            (x.contextWait = false ∨ ¬frees → y.wait = x.wait ∧ y.contextWait = x.contextWait)) ∧
          ((∀ k : Work, s.rh.work = some k → k.window ≠ w) → y.expected = x.expected ∧ y.behind = x.behind ∧
            y.updated = x.updated ∧ y.updateCount = x.updateCount)) ∧
        (∀ q ∈ t.rm.arb.waiting, q.who ≠ .sweepReader) ∧ t.rm.arb.granted ≠ some .sweepReader ∧
        (s.rh.work ≠ none → (∀ q ∈ t.rm.arb.waiting, q.who ≠ .writer) ∧ t.rm.arb.granted ≠ some .writer) ∧
        (s.rm.arb.granted ≠ some .writer → t.rm.mem = s.rm.mem))

/-! ### The control area -/

/-- MASK_WORD_WRITE and CONTROL_WRITE (R175, R180): the mask bits lie in the byte at the even address, and the NOTIFY
outputs are the pending vectors that are not masked; argument words take the selected bytes; staging fields take D[7:0]
(log 11) and payload bytes their own; a write to any other word changes nothing but the cycle. -/
def Obligations.ControlWrites : Prop :=
  ∀ s : State, s.idlePort →
    (∀ (be : BitVec 2) (data : Word),
      exec (.maskWordWrite be data) s =
        .next { s with lp := s.lp.served true 0x8041 be data,
                       en := { s.en with mask := if be.getLsbD 0 then data.setWidth 4 else s.en.mask } }) ∧
    (∀ (i : Fin 4) (be : BitVec 2) (data : Word),
      ∃ v : Word,
        exec (.controlWrite (0x8051 + BitVec.ofNat 16 i.val) be data) s =
          .next { s with lp := { s.lp.served true (0x8051 + BitVec.ofNat 16 i.val) be data with
                                 args := s.lp.args.set i v } } ∧
        ∀ k : Nat, k < 16 → v.getLsbD k =
          if be.getLsbD (k / 8) then data.getLsbD k else (s.lp.args[i]).getLsbD k) ∧
    (∀ v : Fin 4, s.en.notify.getLsbD v.val = (s.en.pending.getLsbD v.val && !s.en.mask.getLsbD v.val)) ∧
    (∀ (be : BitVec 2) (data : Word),
      let m := s.mu.staging
      let taken (old : Byte) : Byte := if be.getLsbD 0 then data.setWidth 8 else old
      let stores (a : BitVec 16) (m' : Staging) : Prop :=
        exec (.controlWrite a be data) s =
          .next { s with lp := s.lp.served true a be data, mu := { s.mu with staging := m' } }
      stores 0x8060 { m with destination := taken m.destination } ∧ stores 0x8061 { m with urgency := taken m.urgency } ∧
      stores 0x8062 { m with kind := taken m.kind } ∧ stores 0x8063 { m with subkind := taken m.subkind } ∧
      stores 0x8064 { m with length := taken m.length }) ∧
    (∀ (i : Fin 16) (be : BitVec 2) (data : Word),
      ∃ t : State, exec (.controlWrite (0x8068 + BitVec.ofNat 16 i.val) be data) s = .next t ∧
        (∀ k : Fin 32, t.mu.staging.payload[k] =
          if k.val = 2 * i.val ∧ be.getLsbD 0 = true then data.setWidth 8
          else if k.val = 2 * i.val + 1 ∧ be.getLsbD 1 = true then (data >>> 8).setWidth 8
          else s.mu.staging.payload[k]) ∧
        t = { s with lp := s.lp.served true (0x8068 + BitVec.ofNat 16 i.val) be data,
                     mu := { s.mu with staging := { s.mu.staging with payload := t.mu.staging.payload } } }) ∧
    (∀ (a : BitVec 16) (be : BitVec 2) (data : Word), 0x8000 ≤ a.toNat → a ≠ 0x8041 → ¬(a = 0x8050 ∧ be = 3) →
      (a.toNat < 0x8051 ∨ (0x8054 < a.toNat ∧ a.toNat < 0x8060) ∨ (0x8064 < a.toNat ∧ a.toNat < 0x8068) ∨
        0x8077 < a.toNat) →
      exec (.controlWrite a be data) s = .next { s with lp := s.lp.served true a be data })

/-- LINE_TIME_LOW_READ, LINE_TIME_HIGH_READ (R25), STATUS_RECORD_FIRST_READ and STATUS_RECORD_WORD_READ (R52): the low
half captures the high half, which the next read of the high half returns and releases; the first word of a record fills
the status capture, from which that record's other words are read, and a window's other words as they stand. A lane not
selected is none (log 10), and a read of neither byte returns 0 and captures and releases nothing (R178). A record's
words are its bytes as chapter 11 lays them out (R51), while its counts are in their ranges; a role code above 3 shows
two bits that the manual leaves open (log 9). A read cycle at any address above the replica, a LOCAL_REPLICA_READ in the
model (log 38), completes at once: it returns the control word as it stands, by the map of chapter 11 (R180, R181; message
payload past the head's length 0, log 36), and 0 for a word the map does not name and for an unused address (R179); no read
changes anything but for the captures above. -/
def Obligations.CapturingReads : Prop :=
  (∀ (s : State) (a : BitVec 16) (be : BitVec 2), s.idlePort → 0x8000 ≤ a.toNat →
    let off : Nat := 2 * a.toNat - 0x10000
    let value : Word := s.controlWord off
    let driven : LocalPort := { s.lp.served false a be 0 with
      dataOut := { low := if be.getLsbD 0 then some (value.setWidth 8) else none,
                   high := if be.getLsbD 1 then some ((value >>> 8).setWidth 8) else none } }
    (be = 0 → exec (.localReplicaRead a be) s =
      .next { s with lp := { s.lp.served false a 0 0 with dataOut := { low := some 0, high := some 0 } } }) ∧
    (be ≠ 0 → off = 0x022 → exec (.localReplicaRead a be) s = exec (.lineTimeLowRead be) s) ∧
    (be ≠ 0 → off = 0x024 → exec (.localReplicaRead a be) s = exec (.lineTimeHighRead be) s) ∧
    (∀ w : WinId, be ≠ 0 → off = 0x200 + 16 * w.val →
      exec (.localReplicaRead a be) s = exec (.statusRecordFirstRead w be) s) ∧
    (be ≠ 0 → off ≠ 0x022 → off ≠ 0x024 → (∀ w : WinId, off ≠ 0x200 + 16 * w.val) →
      exec (.localReplicaRead a be) s = .next { s with lp := driven })) ∧
  (∀ (s : State) (off : Nat), off % 2 = 0 →
    (∀ v : Word, (off, v) ∈ s.controlMap → s.controlWord off = v) ∧
    (off = 0x084 → ∀ w : WinId, (s.controlWord off).getLsbD w.val = (s.win w).updated) ∧
    (off ≠ 0x084 → (∀ v : Word, (off, v) ∉ s.controlMap) → s.controlWord off = 0)) ∧
  (∀ (s : State) (be : BitVec 2), s.idlePort → be ≠ 0 →
    let drives (x : Word) : DataOut :=
      { low := if be.getLsbD 0 then some (x.setWidth 8) else none,
        high := if be.getLsbD 1 then some ((x >>> 8).setWidth 8) else none }
    exec (.lineTimeLowRead be) s =
      .next { s with lp := { s.lp.served false 0x8011 be 0 with dataOut := drives (s.li.lineTime.setWidth 16) },
                     li := { s.li with timeCapture := some ((s.li.lineTime >>> 16).setWidth 16) } } ∧
    exec (.lineTimeHighRead be) s =
      .next { s with lp := { s.lp.served false 0x8012 be 0 with
                             dataOut := drives (s.li.timeCapture.getD ((s.li.lineTime >>> 16).setWidth 16)) },
                     li := { s.li with timeCapture := none } } ∧
    (∀ w : WinId,
      exec (.statusRecordFirstRead w be) s =
        .next { s with lp := { s.lp.served false (0x8100 + BitVec.ofNat 16 (8 * w.val)) be 0 with
                               dataOut := drives (s.statusWords w)[(0 : Fin 8)],
                               capture := some { window := w, words := s.statusWords w } } }) ∧
    ∀ (w : WinId) (i : Fin 8), i ≠ 0 →
      exec (.statusRecordWordRead w i be) s =
        .next { s with lp := { s.lp.served false (0x8100 + BitVec.ofNat 16 (8 * w.val + i.val)) be 0 with
                               dataOut := drives (match s.lp.capture with
                                 | some c => if c.window = w then c.words[i] else (s.statusWords w)[i]
                                 | none => (s.statusWords w)[i]) } }) ∧
  (∀ s : State, s.idlePort →
    let reads (i : Instr) (a : BitVec 16) : Prop := exec i s = .next { s with lp :=
      { s.lp.served false a 0 0 with dataOut := { low := some 0, high := some 0 } } }
    reads (.lineTimeLowRead 0) 0x8011 ∧ reads (.lineTimeHighRead 0) 0x8012 ∧
    (∀ w : WinId, reads (.statusRecordFirstRead w 0) (0x8100 + BitVec.ofNat 16 (8 * w.val))) ∧
    ∀ (w : WinId) (i : Fin 8), i ≠ 0 →
      reads (.statusRecordWordRead w i 0) (0x8100 + BitVec.ofNat 16 (8 * w.val + i.val))) ∧
  ∀ (s : State) (w : WinId), (s.win w).retry ≤ 3 → (s.win w).behind ≤ 4 → (s.win w).claimAttempts ≤ 3 →
    (s.win w).updateCount ≤ 255 → (∀ b : Binding, s.bindingOf w = some b → b.deferred.length ≤ 24) →
    ∃ role : BitVec 2,
      ((s.win w).desc.roleCode.toNat ≤ 3 → (s.win w).standing ≠ .notLoaded →
        role = (s.win w).desc.roleCode.setWidth 2) ∧
      ((s.win w).standing = .notLoaded → role = 0) ∧
      ∀ i : Fin 8, (s.statusWords w)[i] =
        (s.recordBytes w role).getD (2 * i.val + 1) 0 ++ (s.recordBytes w role).getD (2 * i.val) 0

/-! ### Events, counters and notes -/

/-- Recording an event (R165), at run time and during the load (R168), a counter's increase with its sticky flag (R169),
and an update note with its occurrence by the notify mode (R171). -/
def Obligations.EventsCountersAndNotes : Prop :=
  (∀ (s : State) (f : EventFields), s.li.line.runs → s.recordEvent f = { s with en := s.eventOf f }) ∧
  (∀ (s : State) (f : EventFields), s.li.line = .offline → s.en.captureHold = false →
    s.recordEvent f =
      { s with en := { s.en with
          record := { cause := some f.cause, window := f.window, station := f.station, address := f.address,
                      sequence := f.sequence, time := s.li.lineTime },
          captureHold := true, heldOccurrence := true } }) ∧
  (∀ (e : EventUnit) (c : Counter) (n : Nat),
    ((e.bump c n).counters[c.index]).toNat = min 65535 ((e.counters[c.index]).toNat + n) ∧
    (∀ i : Fin 12, i ≠ c.index → (e.bump c n).counters[i] = e.counters[i]) ∧
    (∀ i : Fin 12, (e.bump c n).sticky.getLsbD i.val = (e.sticky.getLsbD i.val || decide (i = c.index))) ∧
    e.bump c n = { e with counters := (e.bump c n).counters, sticky := (e.bump c n).sticky }) ∧
  ∀ (s : State) (w : WinId),
    s.updateNote w =
      { s with
        windows := s.windows.set w { s.win w with updated := true,
                                                  updateCount := min 255 ((s.win w).updateCount + 1) },
        en := if (s.win w).desc.notifyModeCode = 2 ∨
            ((s.win w).desc.notifyModeCode = 1 ∧ (s.win w).updated = false) then
            { s.en with pending := s.en.pending ||| (1 <<< (s.win w).desc.notifyVector.toNat) }
          else s.en }

/-! ### Frames on the wire, and what every step keeps -/

/-- Every legal frame survives the line: the bits a station puts between its delimiters hold no run that a receiver
would take for a delimiter, an abort or a stuff violation (R3, R6; runs are counted from the first content bit, log 8),
stuffing comes off to the same bits (log 7), and the receiver's four checks find the frame that was sent (R7, R8, R9,
R192, R193). -/
def Obligations.FramesSurviveTheLine : Prop :=
  ∀ f : Frame, f.legal →
    wireOf f.content = delimiter ++ stuff (bitsOfBytes f.content) ++ delimiter ∧
    stuffedContentOk (stuff (bitsOfBytes f.content)) = true ∧
    destuff (stuff (bitsOfBytes f.content)) = some (bitsOfBytes f.content) ∧
    judgeContent (bitsOfBytes f.content) = .good f

/-- Every step keeps the replica in its canonical form, so that equal replicas are equal data and every address reads one
byte (R32). -/
def Obligations.StepKeepsReplicaCanonical : Prop :=
  ∀ s t : State, Memory.wf s.rm.mem = true → step s = .next t → Memory.wf t.rm.mem = true

/-- Every step keeps the queues and counts of the part in their ranges (R2, R15, R26, R77, R93, R134, R154, R160, R164,
R171). -/
def Obligations.StepKeepsCountsBounded : Prop :=
  ∀ s t : State, CountsBounded s → step s = .next t → CountsBounded t

/-- Every step keeps an OWN window in OWNER and a FOLLOW window in FOLLOWER (R40, R126), and every window NOT_LOADED until
the load has ended (R49). -/
def Obligations.StepKeepsRolesAndLoad : Prop :=
  ∀ s t : State, RolesHold s → UnloadedUntilLoad s → step s = .next t → RolesHold t ∧ UnloadedUntilLoad t

/-- Every step keeps the post queue, the sweep queue and the deferred lists in their room (R59, R100, R120), given that a
taken write is of an OWNER and an allowed one keeps its room (R56, R58, R62, R65), which every step keeps as well. -/
def Obligations.StepKeepsListsBounded : Prop :=
  ∀ s t : State, ListsBounded s → TakenWritesHaveRoom s → step s = .next t → ListsBounded t ∧ TakenWritesHaveRoom t

/-- The invariants hold in the state held in reset. -/
def Obligations.ResetMeetsInvariants : Prop :=
  Memory.wf State.reset.rm.mem = true ∧ CountsBounded State.reset ∧ RolesHold State.reset ∧
    UnloadedUntilLoad State.reset ∧ ListsBounded State.reset ∧ TakenWritesHaveRoom State.reset
end

