-- ==== Sys2Proof/Laws/State.lean ====
section
/-!
SUPPORT. One lemma per field of State for each named update of a block, so that no proof unfolds a record update.
-/

namespace Sys2Proof.Machine

variable (s : State)

/-! ### State.modWin -/

@[simp] theorem State.modWin_li (w : WinId) (f : Window → Window) : (s.modWin w f).li = s.li := rfl
@[simp] theorem State.modWin_rh (w : WinId) (f : Window → Window) : (s.modWin w f).rh = s.rh := rfl
@[simp] theorem State.modWin_rm (w : WinId) (f : Window → Window) : (s.modWin w f).rm = s.rm := rfl
@[simp] theorem State.modWin_windows (w : WinId) (f : Window → Window) : (s.modWin w f).windows = s.windows.set w (f (s.win w)) := rfl
@[simp] theorem State.modWin_maps (w : WinId) (f : Window → Window) : (s.modWin w f).maps = s.maps := rfl
@[simp] theorem State.modWin_pq (w : WinId) (f : Window → Window) : (s.modWin w f).pq = s.pq := rfl
@[simp] theorem State.modWin_contexts (w : WinId) (f : Window → Window) : (s.modWin w f).contexts = s.contexts := rfl
@[simp] theorem State.modWin_se (w : WinId) (f : Window → Window) : (s.modWin w f).se = s.se := rfl
@[simp] theorem State.modWin_ownerDue (w : WinId) (f : Window → Window) : (s.modWin w f).ownerDue = s.ownerDue := rfl
@[simp] theorem State.modWin_mu (w : WinId) (f : Window → Window) : (s.modWin w f).mu = s.mu := rfl
@[simp] theorem State.modWin_en (w : WinId) (f : Window → Window) : (s.modWin w f).en = s.en := rfl
@[simp] theorem State.modWin_lp (w : WinId) (f : Window → Window) : (s.modWin w f).lp = s.lp := rfl
@[simp] theorem State.modWin_pending (w : WinId) (f : Window → Window) : (s.modWin w f).pending = s.pending := rfl

/-! ### State.modLi -/

@[simp] theorem State.modLi_li (f : LineInterface → LineInterface) : (s.modLi f).li = f s.li := rfl
@[simp] theorem State.modLi_rh (f : LineInterface → LineInterface) : (s.modLi f).rh = s.rh := rfl
@[simp] theorem State.modLi_rm (f : LineInterface → LineInterface) : (s.modLi f).rm = s.rm := rfl
@[simp] theorem State.modLi_windows (f : LineInterface → LineInterface) : (s.modLi f).windows = s.windows := rfl
@[simp] theorem State.modLi_maps (f : LineInterface → LineInterface) : (s.modLi f).maps = s.maps := rfl
@[simp] theorem State.modLi_pq (f : LineInterface → LineInterface) : (s.modLi f).pq = s.pq := rfl
@[simp] theorem State.modLi_contexts (f : LineInterface → LineInterface) : (s.modLi f).contexts = s.contexts := rfl
@[simp] theorem State.modLi_se (f : LineInterface → LineInterface) : (s.modLi f).se = s.se := rfl
@[simp] theorem State.modLi_ownerDue (f : LineInterface → LineInterface) : (s.modLi f).ownerDue = s.ownerDue := rfl
@[simp] theorem State.modLi_mu (f : LineInterface → LineInterface) : (s.modLi f).mu = s.mu := rfl
@[simp] theorem State.modLi_en (f : LineInterface → LineInterface) : (s.modLi f).en = s.en := rfl
@[simp] theorem State.modLi_lp (f : LineInterface → LineInterface) : (s.modLi f).lp = s.lp := rfl
@[simp] theorem State.modLi_pending (f : LineInterface → LineInterface) : (s.modLi f).pending = s.pending := rfl

/-! ### State.modEn -/

@[simp] theorem State.modEn_li (f : EventUnit → EventUnit) : (s.modEn f).li = s.li := rfl
@[simp] theorem State.modEn_rh (f : EventUnit → EventUnit) : (s.modEn f).rh = s.rh := rfl
@[simp] theorem State.modEn_rm (f : EventUnit → EventUnit) : (s.modEn f).rm = s.rm := rfl
@[simp] theorem State.modEn_windows (f : EventUnit → EventUnit) : (s.modEn f).windows = s.windows := rfl
@[simp] theorem State.modEn_maps (f : EventUnit → EventUnit) : (s.modEn f).maps = s.maps := rfl
@[simp] theorem State.modEn_pq (f : EventUnit → EventUnit) : (s.modEn f).pq = s.pq := rfl
@[simp] theorem State.modEn_contexts (f : EventUnit → EventUnit) : (s.modEn f).contexts = s.contexts := rfl
@[simp] theorem State.modEn_se (f : EventUnit → EventUnit) : (s.modEn f).se = s.se := rfl
@[simp] theorem State.modEn_ownerDue (f : EventUnit → EventUnit) : (s.modEn f).ownerDue = s.ownerDue := rfl
@[simp] theorem State.modEn_mu (f : EventUnit → EventUnit) : (s.modEn f).mu = s.mu := rfl
@[simp] theorem State.modEn_en (f : EventUnit → EventUnit) : (s.modEn f).en = f s.en := rfl
@[simp] theorem State.modEn_lp (f : EventUnit → EventUnit) : (s.modEn f).lp = s.lp := rfl
@[simp] theorem State.modEn_pending (f : EventUnit → EventUnit) : (s.modEn f).pending = s.pending := rfl

/-! ### State.modLp -/

@[simp] theorem State.modLp_li (f : LocalPort → LocalPort) : (s.modLp f).li = s.li := rfl
@[simp] theorem State.modLp_rh (f : LocalPort → LocalPort) : (s.modLp f).rh = s.rh := rfl
@[simp] theorem State.modLp_rm (f : LocalPort → LocalPort) : (s.modLp f).rm = s.rm := rfl
@[simp] theorem State.modLp_windows (f : LocalPort → LocalPort) : (s.modLp f).windows = s.windows := rfl
@[simp] theorem State.modLp_maps (f : LocalPort → LocalPort) : (s.modLp f).maps = s.maps := rfl
@[simp] theorem State.modLp_pq (f : LocalPort → LocalPort) : (s.modLp f).pq = s.pq := rfl
@[simp] theorem State.modLp_contexts (f : LocalPort → LocalPort) : (s.modLp f).contexts = s.contexts := rfl
@[simp] theorem State.modLp_se (f : LocalPort → LocalPort) : (s.modLp f).se = s.se := rfl
@[simp] theorem State.modLp_ownerDue (f : LocalPort → LocalPort) : (s.modLp f).ownerDue = s.ownerDue := rfl
@[simp] theorem State.modLp_mu (f : LocalPort → LocalPort) : (s.modLp f).mu = s.mu := rfl
@[simp] theorem State.modLp_en (f : LocalPort → LocalPort) : (s.modLp f).en = s.en := rfl
@[simp] theorem State.modLp_lp (f : LocalPort → LocalPort) : (s.modLp f).lp = f s.lp := rfl
@[simp] theorem State.modLp_pending (f : LocalPort → LocalPort) : (s.modLp f).pending = s.pending := rfl

/-! ### State.modArb -/

@[simp] theorem State.modArb_li (f : Arbiter → Arbiter) : (s.modArb f).li = s.li := rfl
@[simp] theorem State.modArb_rh (f : Arbiter → Arbiter) : (s.modArb f).rh = s.rh := rfl
@[simp] theorem State.modArb_rm (f : Arbiter → Arbiter) : (s.modArb f).rm = { s.rm with arb := f s.rm.arb } := rfl
@[simp] theorem State.modArb_windows (f : Arbiter → Arbiter) : (s.modArb f).windows = s.windows := rfl
@[simp] theorem State.modArb_maps (f : Arbiter → Arbiter) : (s.modArb f).maps = s.maps := rfl
@[simp] theorem State.modArb_pq (f : Arbiter → Arbiter) : (s.modArb f).pq = s.pq := rfl
@[simp] theorem State.modArb_contexts (f : Arbiter → Arbiter) : (s.modArb f).contexts = s.contexts := rfl
@[simp] theorem State.modArb_se (f : Arbiter → Arbiter) : (s.modArb f).se = s.se := rfl
@[simp] theorem State.modArb_ownerDue (f : Arbiter → Arbiter) : (s.modArb f).ownerDue = s.ownerDue := rfl
@[simp] theorem State.modArb_mu (f : Arbiter → Arbiter) : (s.modArb f).mu = s.mu := rfl
@[simp] theorem State.modArb_en (f : Arbiter → Arbiter) : (s.modArb f).en = s.en := rfl
@[simp] theorem State.modArb_lp (f : Arbiter → Arbiter) : (s.modArb f).lp = s.lp := rfl
@[simp] theorem State.modArb_pending (f : Arbiter → Arbiter) : (s.modArb f).pending = s.pending := rfl

/-! ### State.writeReplica -/

@[simp] theorem State.writeReplica_li (a : Nat) (bs : List Byte) : (s.writeReplica a bs).li = s.li := rfl
@[simp] theorem State.writeReplica_rh (a : Nat) (bs : List Byte) : (s.writeReplica a bs).rh = s.rh := rfl
@[simp] theorem State.writeReplica_rm (a : Nat) (bs : List Byte) : (s.writeReplica a bs).rm = { s.rm with mem := Memory.writeBytes s.rm.mem a bs } := rfl
@[simp] theorem State.writeReplica_windows (a : Nat) (bs : List Byte) : (s.writeReplica a bs).windows = s.windows := rfl
@[simp] theorem State.writeReplica_maps (a : Nat) (bs : List Byte) : (s.writeReplica a bs).maps = s.maps := rfl
@[simp] theorem State.writeReplica_pq (a : Nat) (bs : List Byte) : (s.writeReplica a bs).pq = s.pq := rfl
@[simp] theorem State.writeReplica_contexts (a : Nat) (bs : List Byte) : (s.writeReplica a bs).contexts = s.contexts := rfl
@[simp] theorem State.writeReplica_se (a : Nat) (bs : List Byte) : (s.writeReplica a bs).se = s.se := rfl
@[simp] theorem State.writeReplica_ownerDue (a : Nat) (bs : List Byte) : (s.writeReplica a bs).ownerDue = s.ownerDue := rfl
@[simp] theorem State.writeReplica_mu (a : Nat) (bs : List Byte) : (s.writeReplica a bs).mu = s.mu := rfl
@[simp] theorem State.writeReplica_en (a : Nat) (bs : List Byte) : (s.writeReplica a bs).en = s.en := rfl
@[simp] theorem State.writeReplica_lp (a : Nat) (bs : List Byte) : (s.writeReplica a bs).lp = s.lp := rfl
@[simp] theorem State.writeReplica_pending (a : Nat) (bs : List Byte) : (s.writeReplica a bs).pending = s.pending := rfl

/-! ### State.setWork -/

@[simp] theorem State.setWork_li (wk : Option Work) : (s.setWork wk).li = s.li := rfl
@[simp] theorem State.setWork_rh (wk : Option Work) : (s.setWork wk).rh = { s.rh with work := wk } := rfl
@[simp] theorem State.setWork_rm (wk : Option Work) : (s.setWork wk).rm = s.rm := rfl
@[simp] theorem State.setWork_windows (wk : Option Work) : (s.setWork wk).windows = s.windows := rfl
@[simp] theorem State.setWork_maps (wk : Option Work) : (s.setWork wk).maps = s.maps := rfl
@[simp] theorem State.setWork_pq (wk : Option Work) : (s.setWork wk).pq = s.pq := rfl
@[simp] theorem State.setWork_contexts (wk : Option Work) : (s.setWork wk).contexts = s.contexts := rfl
@[simp] theorem State.setWork_se (wk : Option Work) : (s.setWork wk).se = s.se := rfl
@[simp] theorem State.setWork_ownerDue (wk : Option Work) : (s.setWork wk).ownerDue = s.ownerDue := rfl
@[simp] theorem State.setWork_mu (wk : Option Work) : (s.setWork wk).mu = s.mu := rfl
@[simp] theorem State.setWork_en (wk : Option Work) : (s.setWork wk).en = s.en := rfl
@[simp] theorem State.setWork_lp (wk : Option Work) : (s.setWork wk).lp = s.lp := rfl
@[simp] theorem State.setWork_pending (wk : Option Work) : (s.setWork wk).pending = s.pending := rfl

/-! ### State.modSe -/

@[simp] theorem State.modSe_li (f : SweepEngine → SweepEngine) : (s.modSe f).li = s.li := rfl
@[simp] theorem State.modSe_rh (f : SweepEngine → SweepEngine) : (s.modSe f).rh = s.rh := rfl
@[simp] theorem State.modSe_rm (f : SweepEngine → SweepEngine) : (s.modSe f).rm = s.rm := rfl
@[simp] theorem State.modSe_windows (f : SweepEngine → SweepEngine) : (s.modSe f).windows = s.windows := rfl
@[simp] theorem State.modSe_maps (f : SweepEngine → SweepEngine) : (s.modSe f).maps = s.maps := rfl
@[simp] theorem State.modSe_pq (f : SweepEngine → SweepEngine) : (s.modSe f).pq = s.pq := rfl
@[simp] theorem State.modSe_contexts (f : SweepEngine → SweepEngine) : (s.modSe f).contexts = s.contexts := rfl
@[simp] theorem State.modSe_se (f : SweepEngine → SweepEngine) : (s.modSe f).se = f s.se := rfl
@[simp] theorem State.modSe_ownerDue (f : SweepEngine → SweepEngine) : (s.modSe f).ownerDue = s.ownerDue := rfl
@[simp] theorem State.modSe_mu (f : SweepEngine → SweepEngine) : (s.modSe f).mu = s.mu := rfl
@[simp] theorem State.modSe_en (f : SweepEngine → SweepEngine) : (s.modSe f).en = s.en := rfl
@[simp] theorem State.modSe_lp (f : SweepEngine → SweepEngine) : (s.modSe f).lp = s.lp := rfl
@[simp] theorem State.modSe_pending (f : SweepEngine → SweepEngine) : (s.modSe f).pending = s.pending := rfl

/-! ### State.modMu -/

@[simp] theorem State.modMu_li (f : MessageUnit → MessageUnit) : (s.modMu f).li = s.li := rfl
@[simp] theorem State.modMu_rh (f : MessageUnit → MessageUnit) : (s.modMu f).rh = s.rh := rfl
@[simp] theorem State.modMu_rm (f : MessageUnit → MessageUnit) : (s.modMu f).rm = s.rm := rfl
@[simp] theorem State.modMu_windows (f : MessageUnit → MessageUnit) : (s.modMu f).windows = s.windows := rfl
@[simp] theorem State.modMu_maps (f : MessageUnit → MessageUnit) : (s.modMu f).maps = s.maps := rfl
@[simp] theorem State.modMu_pq (f : MessageUnit → MessageUnit) : (s.modMu f).pq = s.pq := rfl
@[simp] theorem State.modMu_contexts (f : MessageUnit → MessageUnit) : (s.modMu f).contexts = s.contexts := rfl
@[simp] theorem State.modMu_se (f : MessageUnit → MessageUnit) : (s.modMu f).se = s.se := rfl
@[simp] theorem State.modMu_ownerDue (f : MessageUnit → MessageUnit) : (s.modMu f).ownerDue = s.ownerDue := rfl
@[simp] theorem State.modMu_mu (f : MessageUnit → MessageUnit) : (s.modMu f).mu = f s.mu := rfl
@[simp] theorem State.modMu_en (f : MessageUnit → MessageUnit) : (s.modMu f).en = s.en := rfl
@[simp] theorem State.modMu_lp (f : MessageUnit → MessageUnit) : (s.modMu f).lp = s.lp := rfl
@[simp] theorem State.modMu_pending (f : MessageUnit → MessageUnit) : (s.modMu f).pending = s.pending := rfl

/-! ### State.setCtx -/

@[simp] theorem State.setCtx_li (i : Fin 2) (c : RefreshContext) : (s.setCtx i c).li = s.li := rfl
@[simp] theorem State.setCtx_rh (i : Fin 2) (c : RefreshContext) : (s.setCtx i c).rh = s.rh := rfl
@[simp] theorem State.setCtx_rm (i : Fin 2) (c : RefreshContext) : (s.setCtx i c).rm = s.rm := rfl
@[simp] theorem State.setCtx_windows (i : Fin 2) (c : RefreshContext) : (s.setCtx i c).windows = s.windows := rfl
@[simp] theorem State.setCtx_maps (i : Fin 2) (c : RefreshContext) : (s.setCtx i c).maps = s.maps := rfl
@[simp] theorem State.setCtx_pq (i : Fin 2) (c : RefreshContext) : (s.setCtx i c).pq = s.pq := rfl
@[simp] theorem State.setCtx_contexts (i : Fin 2) (c : RefreshContext) : (s.setCtx i c).contexts = s.contexts.set i c := rfl
@[simp] theorem State.setCtx_se (i : Fin 2) (c : RefreshContext) : (s.setCtx i c).se = s.se := rfl
@[simp] theorem State.setCtx_ownerDue (i : Fin 2) (c : RefreshContext) : (s.setCtx i c).ownerDue = s.ownerDue := rfl
@[simp] theorem State.setCtx_mu (i : Fin 2) (c : RefreshContext) : (s.setCtx i c).mu = s.mu := rfl
@[simp] theorem State.setCtx_en (i : Fin 2) (c : RefreshContext) : (s.setCtx i c).en = s.en := rfl
@[simp] theorem State.setCtx_lp (i : Fin 2) (c : RefreshContext) : (s.setCtx i c).lp = s.lp := rfl
@[simp] theorem State.setCtx_pending (i : Fin 2) (c : RefreshContext) : (s.setCtx i c).pending = s.pending := rfl

/-! ### State.makeDue -/

@[simp] theorem State.makeDue_li (f : OwnerFrame) : (s.makeDue f).li = s.li := rfl
@[simp] theorem State.makeDue_rh (f : OwnerFrame) : (s.makeDue f).rh = s.rh := rfl
@[simp] theorem State.makeDue_rm (f : OwnerFrame) : (s.makeDue f).rm = s.rm := rfl
@[simp] theorem State.makeDue_windows (f : OwnerFrame) : (s.makeDue f).windows = s.windows := rfl
@[simp] theorem State.makeDue_maps (f : OwnerFrame) : (s.makeDue f).maps = s.maps := rfl
@[simp] theorem State.makeDue_pq (f : OwnerFrame) : (s.makeDue f).pq = s.pq := rfl
@[simp] theorem State.makeDue_contexts (f : OwnerFrame) : (s.makeDue f).contexts = s.contexts := rfl
@[simp] theorem State.makeDue_se (f : OwnerFrame) : (s.makeDue f).se = s.se := rfl
@[simp] theorem State.makeDue_ownerDue (f : OwnerFrame) : (s.makeDue f).ownerDue = s.ownerDue ++ [f] := rfl
@[simp] theorem State.makeDue_mu (f : OwnerFrame) : (s.makeDue f).mu = s.mu := rfl
@[simp] theorem State.makeDue_en (f : OwnerFrame) : (s.makeDue f).en = s.en := rfl
@[simp] theorem State.makeDue_lp (f : OwnerFrame) : (s.makeDue f).lp = s.lp := rfl
@[simp] theorem State.makeDue_pending (f : OwnerFrame) : (s.makeDue f).pending = s.pending := rfl

/-! ### State.withdrawDue -/

@[simp] theorem State.withdrawDue_li (p : OwnerFrame → Bool) : (s.withdrawDue p).li = s.li := rfl
@[simp] theorem State.withdrawDue_rh (p : OwnerFrame → Bool) : (s.withdrawDue p).rh = s.rh := rfl
@[simp] theorem State.withdrawDue_rm (p : OwnerFrame → Bool) : (s.withdrawDue p).rm = s.rm := rfl
@[simp] theorem State.withdrawDue_windows (p : OwnerFrame → Bool) : (s.withdrawDue p).windows = s.windows := rfl
@[simp] theorem State.withdrawDue_maps (p : OwnerFrame → Bool) : (s.withdrawDue p).maps = s.maps := rfl
@[simp] theorem State.withdrawDue_pq (p : OwnerFrame → Bool) : (s.withdrawDue p).pq = s.pq := rfl
@[simp] theorem State.withdrawDue_contexts (p : OwnerFrame → Bool) : (s.withdrawDue p).contexts = s.contexts := rfl
@[simp] theorem State.withdrawDue_se (p : OwnerFrame → Bool) : (s.withdrawDue p).se = s.se := rfl
@[simp] theorem State.withdrawDue_ownerDue (p : OwnerFrame → Bool) : (s.withdrawDue p).ownerDue = s.ownerDue.filter fun f => !p f := rfl
@[simp] theorem State.withdrawDue_mu (p : OwnerFrame → Bool) : (s.withdrawDue p).mu = s.mu := rfl
@[simp] theorem State.withdrawDue_en (p : OwnerFrame → Bool) : (s.withdrawDue p).en = s.en := rfl
@[simp] theorem State.withdrawDue_lp (p : OwnerFrame → Bool) : (s.withdrawDue p).lp = s.lp := rfl
@[simp] theorem State.withdrawDue_pending (p : OwnerFrame → Bool) : (s.withdrawDue p).pending = s.pending := rfl

/-! ### State.setMergeHold -/

@[simp] theorem State.setMergeHold_li (b : Bool) : (s.setMergeHold b).li = s.li := rfl
@[simp] theorem State.setMergeHold_rh (b : Bool) : (s.setMergeHold b).rh = s.rh := rfl
@[simp] theorem State.setMergeHold_rm (b : Bool) : (s.setMergeHold b).rm = s.rm := rfl
@[simp] theorem State.setMergeHold_windows (b : Bool) : (s.setMergeHold b).windows = s.windows := rfl
@[simp] theorem State.setMergeHold_maps (b : Bool) : (s.setMergeHold b).maps = s.maps := rfl
@[simp] theorem State.setMergeHold_pq (b : Bool) : (s.setMergeHold b).pq = { s.pq with mergeHold := b } := rfl
@[simp] theorem State.setMergeHold_contexts (b : Bool) : (s.setMergeHold b).contexts = s.contexts := rfl
@[simp] theorem State.setMergeHold_se (b : Bool) : (s.setMergeHold b).se = s.se := rfl
@[simp] theorem State.setMergeHold_ownerDue (b : Bool) : (s.setMergeHold b).ownerDue = s.ownerDue := rfl
@[simp] theorem State.setMergeHold_mu (b : Bool) : (s.setMergeHold b).mu = s.mu := rfl
@[simp] theorem State.setMergeHold_en (b : Bool) : (s.setMergeHold b).en = s.en := rfl
@[simp] theorem State.setMergeHold_lp (b : Bool) : (s.setMergeHold b).lp = s.lp := rfl
@[simp] theorem State.setMergeHold_pending (b : Bool) : (s.setMergeHold b).pending = s.pending := rfl

/-! ### State.popHold -/

@[simp] theorem State.popHold_li : (s.popHold).li = s.li := rfl
@[simp] theorem State.popHold_rh : (s.popHold).rh = { slots := s.rh.slots.tail, work := none } := rfl
@[simp] theorem State.popHold_rm : (s.popHold).rm = s.rm := rfl
@[simp] theorem State.popHold_windows : (s.popHold).windows = s.windows := rfl
@[simp] theorem State.popHold_maps : (s.popHold).maps = s.maps := rfl
@[simp] theorem State.popHold_pq : (s.popHold).pq = s.pq := rfl
@[simp] theorem State.popHold_contexts : (s.popHold).contexts = s.contexts := rfl
@[simp] theorem State.popHold_se : (s.popHold).se = s.se := rfl
@[simp] theorem State.popHold_ownerDue : (s.popHold).ownerDue = s.ownerDue := rfl
@[simp] theorem State.popHold_mu : (s.popHold).mu = s.mu := rfl
@[simp] theorem State.popHold_en : (s.popHold).en = s.en := rfl
@[simp] theorem State.popHold_lp : (s.popHold).lp = s.lp := rfl
@[simp] theorem State.popHold_pending : (s.popHold).pending = s.pending := rfl

/-! ### Reading a window or a context back -/

/-- A changed window read back. -/
@[simp] theorem State.win_modWin (w : WinId) (f : Window → Window) : (s.modWin w f).win w = f (s.win w) := by
  simp [State.win]

/-- Another window is not changed. -/
theorem State.win_modWin_of_ne {v w : WinId} (f : Window → Window) (h : v ≠ w) : (s.modWin w f).win v = s.win v := by
  have hv : (w : Nat) ≠ (v : Nat) := fun e => h (Fin.ext e.symm)
  simp [State.win, hv]

/-- A state with the same windows has the same window `w`. -/
theorem State.win_eq_of_windows {s t : State} (h : t.windows = s.windows) (w : WinId) : t.win w = s.win w := by
  simp [State.win, h]

/-- A context set, read back. -/
@[simp] theorem State.ctx_setCtx (i : Fin 2) (c : RefreshContext) : (s.setCtx i c).ctx i = c := by
  simp [State.ctx]

/-- The other context is not changed. -/
theorem State.ctx_setCtx_of_ne {i j : Fin 2} (c : RefreshContext) (h : j ≠ i) : (s.setCtx i c).ctx j = s.ctx j := by
  have hv : (i : Nat) ≠ (j : Nat) := fun e => h (Fin.ext e.symm)
  simp [State.ctx, hv]

end Sys2Proof.Machine
end

