-- ==== Sys2Proof/Laws/Follow.lean ====
section
/-!
SUPPORT. All that the follower's shared operations can do: freed contexts, delays, and the entries to sync states. Each
operation has one lemma that gives its window, and one that gives its frame.
-/

namespace Sys2Proof.Machine

/-! ### Folds over the windows -/

/-- A change of windows one after the other, none twice, changes each listed one by its own value and nothing else. -/
theorem State.foldl_modWin (g : Window → Window) (l : List WinId) (h : l.Nodup) (s : State) :
    ∃ ws : Vector Window 16, l.foldl (fun t w => t.modWin w g) s = { s with windows := ws } ∧
      ∀ w : WinId, ws[w] = if w ∈ l then g (s.win w) else s.win w := by
  induction l generalizing s with
  | nil => exact ⟨s.windows, rfl, fun w => by simp [State.win]⟩
  | cons a l ih =>
    obtain ⟨ha, hl⟩ := List.nodup_cons.1 h
    obtain ⟨ws, h1, h2⟩ := ih hl (s.modWin a g)
    refine ⟨ws, by rw [List.foldl_cons, h1]; rfl, fun w => ?_⟩
    rw [h2 w]
    rcases eq_or_ne w a with rfl | hw
    · simp [ha]
    · simp [hw, State.win_modWin_of_ne]

/-- Every window changed by one function. -/
theorem State.foldl_allWindows (g : Window → Window) (s : State) :
    allWindows.foldl (fun t w => t.modWin w g) s = { s with windows := s.windows.map g } := by
  obtain ⟨ws, h1, h2⟩ := State.foldl_modWin g allWindows (by decide) s
  rw [h1]
  congr 1
  ext1 i hi
  have hm : (⟨i, hi⟩ : WinId) ∈ allWindows := by
    have : ∀ w : WinId, w ∈ allWindows := by decide
    exact this _
  have := h2 ⟨i, hi⟩
  simp only [hm, if_true] at this
  simpa [State.win] using this

/-- A change of a window that keeps it is none. -/
theorem State.modWin_self (s : State) (w : WinId) (f : Window → Window) (h : f (s.win w) = s.win w) : s.modWin w f = s := by
  have : s.windows.set w (s.win w) = s.windows := by
    ext1 i hi
    by_cases hw : (w : Nat) = i
    · subst hw; simp [State.win]
    · simp [hw]
  simp [State.modWin, h, this]

/-! ### Contexts -/

/-- A context that frees gives every window in context wait a new delay, and does nothing else (R90). -/
theorem State.contextFreed_eq (s : State) :
    s.contextFreed = { s with windows := s.windows.map fun x =>
      if x.contextWait then { x with contextWait := false, wait := s.drawnTimer } else x } := by
  rw [← State.foldl_allWindows]
  unfold State.contextFreed
  congr 1
  funext t w
  by_cases h : (t.win w).contextWait
  · simp [h, State.modWin]
  · rw [if_neg h, State.modWin_self]
    simp [h]

/-- The window after a context frees. -/
theorem State.contextFreed_win (s : State) (w : WinId) :
    s.contextFreed.win w =
      if (s.win w).contextWait then { s.win w with contextWait := false, wait := s.drawnTimer } else s.win w := by
  rw [State.contextFreed_eq]
  simp only [State.win, Fin.getElem_fin, Vector.getElem_map]
  rfl

/-- A freed context: it is free, every window in context wait draws a new delay, and nothing else changes (R90). -/
theorem State.freeContext_eq (s : State) (i : Fin 2) :
    s.freeContext i = { s with contexts := s.contexts.set i .free, windows := s.windows.map fun x =>
      if x.contextWait then { x with contextWait := false, wait := s.drawnTimer } else x } := by
  unfold State.freeContext
  rw [State.contextFreed_eq]
  rfl

/-- The window after a context is freed. -/
theorem State.freeContext_win (s : State) (i : Fin 2) (w : WinId) :
    (s.freeContext i).win w =
      if (s.win w).contextWait then { s.win w with contextWait := false, wait := s.drawnTimer } else s.win w := by
  rw [State.freeContext_eq]
  simp only [State.win, Fin.getElem_fin, Vector.getElem_map]
  rfl

/-- A context after another frees. -/
theorem State.freeContext_ctx (s : State) (i j : Fin 2) :
    (s.freeContext i).ctx j = if j = i then .free else s.ctx j := by
  rw [State.freeContext_eq]
  rcases eq_or_ne j i with rfl | h
  · simp [State.ctx]
  · have hv : (i : Nat) ≠ (j : Nat) := fun e => h (Fin.ext e.symm)
    simp [State.ctx, h, hv]

/-- A context found holds what was looked for. -/
theorem State.findCtx_some {s : State} {p : RefreshContext → Bool} {i : Fin 2} (h : s.findCtx p = some i) :
    p (s.ctx i) = true := by
  unfold State.findCtx at h
  split at h
  · next hp => simp only [Option.some.injEq] at h; subst h; exact hp
  · split at h
    · next hp => simp only [Option.some.injEq] at h; subst h; exact hp
    · simp at h

/-- No context found. -/
theorem State.findCtx_none {s : State} {p : RefreshContext → Bool} (h : s.findCtx p = none) (i : Fin 2) :
    p (s.ctx i) = false := by
  unfold State.findCtx at h
  split at h
  · simp at h
  · next h0 =>
    split at h
    · simp at h
    · next h1 =>
      match i with
      | 0 => simpa using h0
      | 1 => simpa using h1

/-- A bound context is its window's. -/
theorem State.boundCtx_some {s : State} {w : WinId} {i : Fin 2} (h : s.boundCtx w = some i) :
    ∃ b : Binding, s.ctx i = .bound b ∧ b.window = w := by
  have := State.findCtx_some h
  cases hc : s.ctx i with
  | free => rw [hc] at this; simp [RefreshContext.isBoundTo] at this
  | reserved v => rw [hc] at this; simp [RefreshContext.isBoundTo] at this
  | bound b => rw [hc] at this; exact ⟨b, rfl, by simpa [RefreshContext.isBoundTo] using this⟩

/-! ### Delays and entries to sync states -/

/-- The frame of a released reservation: the frame on the line, the contexts and the windows can change (R90). -/
theorem State.releaseReservation_frame (s : State) (w : WinId) :
    ∃ (tx : Transmitter) (cs : Vector RefreshContext 2) (ws : Vector Window 16),
      s.releaseReservation w = { s with li := { s.li with tx := tx }, contexts := cs, windows := ws } ∧
      (∀ v : WinId, ws[v] = s.win v ∨
        ((s.win v).contextWait = true ∧ ws[v] = { s.win v with contextWait := false, wait := s.drawnTimer })) ∧
      ∀ i : Fin 2, cs[i] = if s.reservedCtx w = some i then .free else s.ctx i := by
  unfold State.releaseReservation
  cases h : s.reservedCtx w with
  | none => exact ⟨s.li.tx, s.contexts, s.windows, rfl, fun v => .inl rfl, fun i => by simp [State.ctx]⟩
  | some i =>
    simp only [State.freeContext_eq, State.withdrawRefreshReq, State.withdrawOnLine, State.modLi]
    refine ⟨_, _, _, rfl, fun v => ?_, fun j => ?_⟩
    · by_cases hv : (s.win v).contextWait
      · right
        refine ⟨hv, ?_⟩
        have hv' : s.windows[v].contextWait = true := hv
        simp only [Fin.getElem_fin, Vector.getElem_map] at *
        simp [hv', State.win, State.drawnTimer, State.drawDelay]
      · left
        have hv' : s.windows[v].contextWait = false := by simpa [State.win] using hv
        simp only [Fin.getElem_fin, Vector.getElem_map] at *
        simp [hv', State.win]
    · rcases eq_or_ne i j with rfl | hj
      · simp
      · have hv : (i : Nat) ≠ (j : Nat) := fun e => hj (Fin.ext e)
        simp [hj, hv, State.ctx]

/-- A window that does not wait for a context is as it was after a reservation is released. -/
theorem State.releaseReservation_win {s : State} {v : WinId} (w : WinId) (h : (s.win v).contextWait = false) :
    (s.releaseReservation w).win v = s.win v := by
  obtain ⟨tx, cs, ws, h1, h2, -⟩ := s.releaseReservation_frame w
  rcases h2 v with h3 | ⟨h3, -⟩
  · rw [h1]; exact h3
  · rw [h] at h3; simp at h3

/-- A window at the start of a delay (R86). -/
theorem State.beginDelay_win (s : State) (w : WinId) :
    (s.beginDelay w).win w = { s.win w with contextWait := false, wait := s.drawnTimer } := by
  simp only [State.beginDelay, State.win_modWin]
  rw [State.releaseReservation_win w (by simp), State.win_modWin]
  obtain ⟨tx, cs, ws, h1, -, -⟩ := (s.modWin w fun x => { x with contextWait := false }).releaseReservation_frame w
  have : ((s.modWin w fun x => { x with contextWait := false }).releaseReservation w).drawnTimer = s.drawnTimer := by
    rw [h1]; rfl
  rw [this]

/-- A window at entry to GAP (R77, R86). -/
theorem State.enterGap_win (s : State) (w : WinId) :
    (s.enterGap w).win w = { s.win w with sync := .gap, gapOrigin := some .here, contextWait := false,
                                          wait := s.drawnTimer } := by
  simp only [State.enterGap, State.beginDelay_win, State.win_modWin]
  rfl

/-- A window at entry to UNSYNCED (R77, R86). -/
theorem State.enterUnsynced_win (s : State) (w : WinId) :
    (s.enterUnsynced w).win w = { s.win w with sync := .unsynced, expected := none, gapOrigin := none,
                                               contextWait := false, wait := s.drawnTimer } := by
  simp only [State.enterUnsynced, State.beginDelay_win, State.win_modWin]
  rfl

/-- A window at entry to STALE (R77, R94). -/
theorem State.enterStale_win (s : State) (w : WinId) :
    (s.enterStale w).win w = { s.win w with sync := .stale, gapOrigin := none, wait := .stopped, contextWait := false } := by
  simp only [State.enterStale]
  rw [State.releaseReservation_win w (by simp), State.win_modWin]

/-- The frame of a delay's start. -/
theorem State.beginDelay_frame (s : State) (w : WinId) :
    ∃ (tx : Transmitter) (cs : Vector RefreshContext 2) (ws : Vector Window 16),
      s.beginDelay w = { s with li := { s.li with tx := tx }, contexts := cs, windows := ws } := by
  obtain ⟨tx, cs, ws, h1, -, -⟩ := (s.modWin w fun x => { x with contextWait := false }).releaseReservation_frame w
  exact ⟨tx, cs, _, by simp only [State.beginDelay]; rw [h1]; rfl⟩

/-- The frame of an entry to GAP. -/
theorem State.enterGap_frame (s : State) (w : WinId) :
    ∃ (tx : Transmitter) (cs : Vector RefreshContext 2) (ws : Vector Window 16),
      s.enterGap w = { s with li := { s.li with tx := tx }, contexts := cs, windows := ws } := by
  obtain ⟨tx, cs, ws, h⟩ := (s.modWin w fun x => { x with sync := .gap, gapOrigin := some .here }).beginDelay_frame w
  exact ⟨tx, cs, ws, h⟩

/-- The frame of an entry to UNSYNCED. -/
theorem State.enterUnsynced_frame (s : State) (w : WinId) :
    ∃ (tx : Transmitter) (cs : Vector RefreshContext 2) (ws : Vector Window 16),
      s.enterUnsynced w = { s with li := { s.li with tx := tx }, contexts := cs, windows := ws } := by
  obtain ⟨tx, cs, ws, h⟩ :=
    (s.modWin w fun x => { x with sync := .unsynced, expected := none, gapOrigin := none }).beginDelay_frame w
  exact ⟨tx, cs, ws, h⟩

/-- The frame of an entry to STALE. -/
theorem State.enterStale_frame (s : State) (w : WinId) :
    ∃ (tx : Transmitter) (cs : Vector RefreshContext 2) (ws : Vector Window 16),
      s.enterStale w = { s with li := { s.li with tx := tx }, contexts := cs, windows := ws } := by
  obtain ⟨tx, cs, ws, h, -, -⟩ := (s.modWin w fun x =>
    { x with sync := .stale, gapOrigin := none, wait := .stopped, contextWait := false }).releaseReservation_frame w
  exact ⟨tx, cs, ws, h⟩

/-- With nothing reserved for it a window's delay begins with no other change. -/
theorem State.beginDelay_eq {s : State} {w : WinId} (h : s.reservedCtx w = none) :
    s.beginDelay w = s.modWin w fun x => { x with contextWait := false, wait := s.drawnTimer } := by
  have h' : (s.modWin w fun x => { x with contextWait := false }).reservedCtx w = none := h
  simp only [State.beginDelay, State.releaseReservation, h']
  simp [State.modWin, State.win]
  rfl

end Sys2Proof.Machine
end

