-- ==== Sys2Proof/Laws/Memory.lean ====
section
/-!
SUPPORT. The replica memory's laws: a byte written reads back, every other byte reads as before, and the canonical form is
kept.
-/

namespace Sys2Proof.Machine

/-- A memory whose listed addresses start at `lo` reads 0 below it. -/
theorem Memory.read_below {m : Replica} {lo a : Nat} (h : Memory.wfFrom lo m = true) (ha : a < lo) :
    Memory.read m a = 0 := by
  induction m generalizing lo with
  | nil => rfl
  | cons c rest ih =>
    obtain ⟨k, b⟩ := c
    simp only [Memory.wfFrom, Bool.and_eq_true, decide_eq_true_eq] at h
    obtain ⟨⟨⟨hk, _⟩, _⟩, hr⟩ := h
    have hka : k ≠ a := by omega
    simp only [Memory.read, if_neg hka]
    exact ih hr (by omega)

/-- A lower bound on the listed addresses can be lowered. -/
theorem Memory.wfFrom_mono {m : Replica} {lo lo' : Nat} (h : Memory.wfFrom lo m = true) (hl : lo' ≤ lo) :
    Memory.wfFrom lo' m = true := by
  cases m with
  | nil => rfl
  | cons c rest =>
    obtain ⟨k, b⟩ := c
    simp only [Memory.wfFrom, Bool.and_eq_true, decide_eq_true_eq] at h ⊢
    exact ⟨⟨⟨by omega, h.1.1.2⟩, h.1.2⟩, h.2⟩

/-- A write at an address not below the bound keeps the canonical form. -/
theorem Memory.wfFrom_write {m : Replica} {lo a : Nat} (b : Byte) (h : Memory.wfFrom lo m = true) (hl : lo ≤ a)
    (ha : a < 65536) : Memory.wfFrom lo (Memory.write m a b) = true := by
  induction m generalizing lo with
  | nil =>
    simp only [Memory.write]
    split
    · rfl
    · rename_i hb
      simp only [Memory.wfFrom, Bool.and_eq_true, decide_eq_true_eq]
      exact ⟨⟨⟨hl, ha⟩, hb⟩, trivial⟩
  | cons c rest ih =>
    obtain ⟨k, v⟩ := c
    have h' := h
    simp only [Memory.wfFrom, Bool.and_eq_true, decide_eq_true_eq] at h
    obtain ⟨⟨⟨hk, hk'⟩, hv⟩, hr⟩ := h
    simp only [Memory.write]
    split
    · rename_i hak
      split
      · exact h'
      · rename_i hb
        simp only [Memory.wfFrom, Bool.and_eq_true, decide_eq_true_eq]
        exact ⟨⟨⟨hl, ha⟩, hb⟩, ⟨⟨by omega, hk'⟩, hv⟩, hr⟩
    · split
      · rename_i hak
        split
        · exact Memory.wfFrom_mono hr (by omega)
        · rename_i hb
          simp only [Memory.wfFrom, Bool.and_eq_true, decide_eq_true_eq]
          subst hak
          exact ⟨⟨⟨hk, hk'⟩, hb⟩, hr⟩
      · rename_i h1 h2
        simp only [Memory.wfFrom, Bool.and_eq_true, decide_eq_true_eq]
        exact ⟨⟨⟨hk, hk'⟩, hv⟩, ih hr (by omega)⟩

/-- A byte write keeps the canonical form. -/
theorem Memory.wf_write {m : Replica} {a : Nat} (b : Byte) (h : Memory.wf m = true) (ha : a < 65536) :
    Memory.wf (Memory.write m a b) = true :=
  Memory.wfFrom_write b h (Nat.zero_le a) ha

/-- A write of bytes keeps the canonical form. -/
theorem Memory.wf_writeBytes {m : Replica} (a : Nat) (bs : List Byte) (h : Memory.wf m = true) :
    Memory.wf (Memory.writeBytes m a bs) = true := by
  induction bs generalizing m a with
  | nil => exact h
  | cons b rest ih => exact ih (a + 1) (Memory.wf_write b h (Nat.mod_lt a (by decide)))

/-- What an address reads after a byte write. -/
theorem Memory.read_write_from {m : Replica} {lo a : Nat} (b : Byte) (x : Nat) (h : Memory.wfFrom lo m = true) :
    Memory.read (Memory.write m a b) x = if x = a then b else Memory.read m x := by
  induction m generalizing lo with
  | nil =>
    simp only [Memory.write]
    by_cases hx : x = a
    · subst hx
      split <;> simp_all [Memory.read]
    · have hx' : a ≠ x := fun e => hx e.symm
      split <;> simp [Memory.read, hx']
  | cons c rest ih =>
    obtain ⟨k, v⟩ := c
    have h' := h
    simp only [Memory.wfFrom, Bool.and_eq_true, decide_eq_true_eq] at h
    obtain ⟨⟨⟨hk, hk'⟩, hv⟩, hr⟩ := h
    simp only [Memory.write]
    by_cases h1 : a < k
    · simp only [h1, if_true]
      have hbelow : Memory.read ((k, v) :: rest) a = 0 := by
        apply Memory.read_below (lo := k) _ h1
        simp only [Memory.wfFrom, Bool.and_eq_true, decide_eq_true_eq]
        exact ⟨⟨⟨Nat.le_refl k, hk'⟩, hv⟩, hr⟩
      by_cases hb : b = 0
      · subst hb
        simp only [if_true]
        by_cases hx : x = a
        · subst hx; rw [hbelow]; simp
        · simp [hx]
      · simp only [hb, if_false]
        by_cases hx : x = a
        · subst hx; simp [Memory.read]
        · have hx' : a ≠ x := fun e => hx e.symm
          simp [Memory.read, hx, hx']
    · simp only [h1, if_false]
      by_cases h2 : a = k
      · subst h2
        simp only [if_true]
        have hbelow : Memory.read rest a = 0 := Memory.read_below hr (by omega)
        by_cases hb : b = 0
        · subst hb
          simp only [if_true]
          by_cases hx : x = a
          · subst hx; simpa using hbelow
          · have hx' : a ≠ x := fun e => hx e.symm
            simp [Memory.read, hx, hx']
        · simp only [hb, if_false]
          by_cases hx : x = a
          · subst hx; simp [Memory.read]
          · have hx' : a ≠ x := fun e => hx e.symm
            simp [Memory.read, hx, hx']
      · simp only [h2, if_false, Memory.read]
        by_cases hkx : k = x
        · subst hkx
          have : ¬ k = a := fun e => h2 e.symm
          simp [this]
        · simp only [hkx, if_false]
          exact ih hr

/-- What an address reads after a byte write of a memory in canonical form. -/
theorem Memory.read_write {m : Replica} (a : Nat) (b : Byte) (x : Nat) (h : Memory.wf m = true) :
    Memory.read (Memory.write m a b) x = if x = a then b else Memory.read m x :=
  Memory.read_write_from b x h

/-- A byte outside a write of bytes reads as before. -/
theorem Memory.read_writeBytes_outside {m : Replica} {a x : Nat} (bs : List Byte) (h : Memory.wf m = true)
    (hx : ∀ i, i < bs.length → x ≠ (a + i) % 65536) :
    Memory.read (Memory.writeBytes m a bs) x = Memory.read m x := by
  induction bs generalizing m a with
  | nil => rfl
  | cons b rest ih =>
    have h0 := hx 0 (by simp)
    simp only [Nat.add_zero] at h0
    simp only [Memory.writeBytes]
    rw [ih (Memory.wf_write b h (Nat.mod_lt a (by decide)))
      (fun i hi => by
        have := hx (i + 1) (by simpa using hi)
        rwa [show a + (i + 1) = a + 1 + i by omega] at this)]
    rw [Memory.read_write _ _ _ h, if_neg h0]

/-- A byte of a write that stays inside the replica reads back. -/
theorem Memory.read_writeBytes_inside {m : Replica} {a i : Nat} (bs : List Byte) (h : Memory.wf m = true)
    (hfit : a + bs.length ≤ 65536) (hi : i < bs.length) :
    Memory.read (Memory.writeBytes m a bs) (a + i) = bs.getD i 0 := by
  induction bs generalizing m a i with
  | nil => simp at hi
  | cons b rest ih =>
    have hl : (b :: rest).length = rest.length + 1 := rfl
    have hw := Memory.wf_write (a := a % 65536) b h (Nat.mod_lt a (by decide))
    have hmod : a % 65536 = a := Nat.mod_eq_of_lt (by omega)
    cases i with
    | zero =>
      simp only [Memory.writeBytes, Nat.add_zero]
      rw [Memory.read_writeBytes_outside rest hw]
      · rw [Memory.read_write _ _ _ h, hmod]; simp
      · intro j hj
        rw [Nat.mod_eq_of_lt (by omega)]
        omega
    | succ j =>
      simp only [Memory.writeBytes]
      rw [show a + (j + 1) = a + 1 + j by omega, ih hw (by omega) (by omega)]
      simp

end Sys2Proof.Machine
end

