-- ==== Sys2Proof/Laws/Store.lean ====
section
/-!
SUPPORT. The shared operations leave the replica memory and the queue of waiting commands alone, but for those that write
the replica, which keep its canonical form.
-/

namespace Sys2Proof.Machine

/-- A fold whose step keeps the replica memory keeps it. -/
theorem State.foldl_mem {α : Type} (f : State → α → State) (h : ∀ t a, (f t a).rm.mem = t.rm.mem) (l : List α)
    (s : State) : (l.foldl f s).rm.mem = s.rm.mem := by
  induction l generalizing s with
  | nil => rfl
  | cons a rest ih => rw [List.foldl_cons, ih, h]

/-- A fold whose step keeps the queue of commands keeps it. -/
theorem State.foldl_pending {α : Type} (f : State → α → State) (h : ∀ t a, (f t a).pending = t.pending) (l : List α)
    (s : State) : (l.foldl f s).pending = s.pending := by
  induction l generalizing s with
  | nil => rfl
  | cons a rest ih => rw [List.foldl_cons, ih, h]

@[simp] theorem State.requestIn_mem (s : State) (r : Requester) (n : Nat) : (s.requestIn r n).rm.mem = s.rm.mem := rfl

@[simp] theorem State.requestIn_pending (s : State) (r : Requester) (n : Nat) :
    (s.requestIn r n).pending = s.pending := rfl

@[simp] theorem State.requestGrant_mem (s : State) (r : Requester) : (s.requestGrant r).rm.mem = s.rm.mem := rfl

@[simp] theorem State.requestGrant_pending (s : State) (r : Requester) : (s.requestGrant r).pending = s.pending := rfl

@[simp] theorem State.releaseGrant_mem (s : State) : (s.releaseGrant).rm.mem = s.rm.mem := rfl

@[simp] theorem State.releaseGrant_pending (s : State) : (s.releaseGrant).pending = s.pending := rfl

@[simp] theorem State.withdrawRequest_mem (s : State) (r : Requester) : (s.withdrawRequest r).rm.mem = s.rm.mem := rfl

@[simp] theorem State.withdrawRequest_pending (s : State) (r : Requester) :
    (s.withdrawRequest r).pending = s.pending := rfl

@[simp] theorem State.recordEvent_mem (s : State) (f : EventFields) : (s.recordEvent f).rm.mem = s.rm.mem := rfl

@[simp] theorem State.recordEvent_pending (s : State) (f : EventFields) : (s.recordEvent f).pending = s.pending := rfl

@[simp] theorem State.count_mem (s : State) (c : Counter) (n : Nat) : (s.count c n).rm.mem = s.rm.mem := rfl

@[simp] theorem State.count_pending (s : State) (c : Counter) (n : Nat) : (s.count c n).pending = s.pending := rfl

@[simp] theorem State.occurrence_mem (s : State) (v : BitVec 2) : (s.occurrence v).rm.mem = s.rm.mem := rfl

@[simp] theorem State.occurrence_pending (s : State) (v : BitVec 2) : (s.occurrence v).pending = s.pending := rfl

@[simp] theorem State.updateNote_mem (s : State) (w : WinId) : (s.updateNote w).rm.mem = s.rm.mem := by
  simp only [State.updateNote]
  split <;> simp

@[simp] theorem State.updateNote_pending (s : State) (w : WinId) : (s.updateNote w).pending = s.pending := by
  simp only [State.updateNote]
  split <;> simp

@[simp] theorem State.clearUpdates_mem (s : State) (set : Word) : (s.clearUpdates set).rm.mem = s.rm.mem := by
  simp only [State.clearUpdates]
  refine State.foldl_mem _ (fun t a => ?_) _ _
  split <;> rfl

@[simp] theorem State.clearUpdates_pending (s : State) (set : Word) : (s.clearUpdates set).pending = s.pending := by
  simp only [State.clearUpdates]
  refine State.foldl_pending _ (fun t a => ?_) _ _
  split <;> rfl

@[simp] theorem State.takeWindow_mem (s : State) (domainSet : Word) (station : Station) (w : WinId) (d : Descriptor) :
    (s.takeWindow domainSet station w d).rm.mem = s.rm.mem := by
  simp only [State.takeWindow]
  split <;> simp

@[simp] theorem State.takeWindow_pending (s : State) (domainSet : Word) (station : Station) (w : WinId) (d : Descriptor) :
    (s.takeWindow domainSet station w d).pending = s.pending := by
  simp only [State.takeWindow]
  split <;> simp

@[simp] theorem State.buildMaps_mem (s : State) : (s.buildMaps).rm.mem = s.rm.mem := rfl

@[simp] theorem State.buildMaps_pending (s : State) : (s.buildMaps).pending = s.pending := rfl

@[simp] theorem State.placeWrite_mem (s : State) (w : WinId) (offset : Nat) (bytes : List Byte) :
    (s.placeWrite w offset bytes).rm.mem = s.rm.mem := by
  simp only [State.placeWrite]
  split <;> simp

@[simp] theorem State.placeWrite_pending (s : State) (w : WinId) (offset : Nat) (bytes : List Byte) :
    (s.placeWrite w offset bytes).pending = s.pending := by
  simp only [State.placeWrite]
  split <;> simp

@[simp] theorem State.setStage_mem (s : State) (c : LocalCycle) (stage : Stage) :
    (s.setStage c stage).rm.mem = s.rm.mem := rfl

@[simp] theorem State.setStage_pending (s : State) (c : LocalCycle) (stage : Stage) :
    (s.setStage c stage).pending = s.pending := rfl

@[simp] theorem State.setWait_mem (s : State) (b : Bool) : (s.setWait b).rm.mem = s.rm.mem := rfl

@[simp] theorem State.setWait_pending (s : State) (b : Bool) : (s.setWait b).pending = s.pending := rfl

@[simp] theorem State.allowWrite_mem (s : State) (w : WinId) (c : LocalCycle) : (s.allowWrite w c).rm.mem = s.rm.mem := rfl

@[simp] theorem State.allowWrite_pending (s : State) (w : WinId) (c : LocalCycle) :
    (s.allowWrite w c).pending = s.pending := rfl

@[simp] theorem State.retestHeld_mem (s : State) : (s.retestHeld).rm.mem = s.rm.mem := by
  simp only [State.retestHeld]
  (repeat' split) <;> simp

@[simp] theorem State.retestHeld_pending (s : State) : (s.retestHeld).pending = s.pending := by
  simp only [State.retestHeld]
  (repeat' split) <;> simp

@[simp] theorem State.recordRefusal_mem (s : State) (w : WinId) (addr : Nat) :
    (s.recordRefusal w addr).rm.mem = s.rm.mem := rfl

@[simp] theorem State.recordRefusal_pending (s : State) (w : WinId) (addr : Nat) :
    (s.recordRefusal w addr).pending = s.pending := rfl

@[simp] theorem State.refuseTaken_mem (s : State) (w : WinId) : (s.refuseTaken w).rm.mem = s.rm.mem := by
  simp only [State.refuseTaken]
  (repeat' split) <;> simp

@[simp] theorem State.refuseTaken_pending (s : State) (w : WinId) : (s.refuseTaken w).pending = s.pending := by
  simp only [State.refuseTaken]
  (repeat' split) <;> simp

@[simp] theorem State.restartMark_mem (s : State) (w : WinId) : (s.restartMark w).rm.mem = s.rm.mem := by
  unfold State.restartMark
  split <;> simp

@[simp] theorem State.restartMark_pending (s : State) (w : WinId) : (s.restartMark w).pending = s.pending := by
  unfold State.restartMark
  split <;> simp

@[simp] theorem State.updateCompleted_mem (s : State) (w : WinId) (seqs : List Word) :
    (s.updateCompleted w seqs).rm.mem = s.rm.mem := by
  simp [State.updateCompleted]

@[simp] theorem State.updateCompleted_pending (s : State) (w : WinId) (seqs : List Word) :
    (s.updateCompleted w seqs).pending = s.pending := by
  simp [State.updateCompleted]

@[simp] theorem State.markCompleted_mem (s : State) (w : WinId) : (s.markCompleted w).rm.mem = s.rm.mem := by
  unfold State.markCompleted
  split <;> simp

@[simp] theorem State.markCompleted_pending (s : State) (w : WinId) : (s.markCompleted w).pending = s.pending := by
  unfold State.markCompleted
  split <;> simp

@[simp] theorem State.discardPosts_mem (s : State) (w : WinId) : (s.discardPosts w).rm.mem = s.rm.mem := by
  unfold State.discardPosts
  split <;> simp

@[simp] theorem State.discardPosts_pending (s : State) (w : WinId) : (s.discardPosts w).pending = s.pending := by
  unfold State.discardPosts
  split <;> simp

@[simp] theorem State.markLosers_mem (s : State) : (s.markLosers).rm.mem = s.rm.mem := by
  simp only [State.markLosers]
  refine State.foldl_mem _ (fun t a => ?_) _ _
  split <;> rfl

@[simp] theorem State.markLosers_pending (s : State) : (s.markLosers).pending = s.pending := by
  simp only [State.markLosers]
  refine State.foldl_pending _ (fun t a => ?_) _ _
  split <;> rfl

@[simp] theorem State.emptyQueue_mem (s : State) : (s.emptyQueue).rm.mem = s.rm.mem := by
  unfold State.emptyQueue
  split <;> simp

@[simp] theorem State.emptyQueue_pending (s : State) : (s.emptyQueue).pending = s.pending := by
  unfold State.emptyQueue
  split <;> simp

@[simp] theorem State.abandonSweep_mem (s : State) (w : WinId) : (s.abandonSweep w).rm.mem = s.rm.mem := rfl

@[simp] theorem State.abandonSweep_pending (s : State) (w : WinId) : (s.abandonSweep w).pending = s.pending := rfl

@[simp] theorem State.clearSweep_mem (s : State) (c : Sweep) : (s.clearSweep c).rm.mem = s.rm.mem := rfl

@[simp] theorem State.clearSweep_pending (s : State) (c : Sweep) : (s.clearSweep c).pending = s.pending := rfl

@[simp] theorem State.sweepEndCompleted_mem (s : State) (w : WinId) : (s.sweepEndCompleted w).rm.mem = s.rm.mem := by
  unfold State.sweepEndCompleted
  split <;> simp

@[simp] theorem State.sweepEndCompleted_pending (s : State) (w : WinId) :
    (s.sweepEndCompleted w).pending = s.pending := by
  unfold State.sweepEndCompleted
  split <;> simp

@[simp] theorem State.sweepFrameLost_mem (s : State) (src : Source) : (s.sweepFrameLost src).rm.mem = s.rm.mem := by
  simp only [State.sweepFrameLost]
  (repeat' split) <;> simp

@[simp] theorem State.sweepFrameLost_pending (s : State) (src : Source) : (s.sweepFrameLost src).pending = s.pending := by
  simp only [State.sweepFrameLost]
  (repeat' split) <;> simp

@[simp] theorem State.dropPageRead_mem (s : State) : (s.dropPageRead).rm.mem = s.rm.mem := by
  simp only [State.dropPageRead]
  split <;> simp

@[simp] theorem State.dropPageRead_pending (s : State) : (s.dropPageRead).pending = s.pending := by
  simp only [State.dropPageRead]
  split <;> simp

@[simp] theorem State.queueStartSweeps_mem (s : State) : (s.queueStartSweeps).rm.mem = s.rm.mem := by
  simp only [State.queueStartSweeps]
  refine State.foldl_mem _ (fun t a => ?_) _ _
  split <;> rfl

@[simp] theorem State.queueStartSweeps_pending (s : State) : (s.queueStartSweeps).pending = s.pending := by
  simp only [State.queueStartSweeps]
  refine State.foldl_pending _ (fun t a => ?_) _ _
  split <;> rfl

@[simp] theorem State.withdrawOnLine_mem (s : State) (p : Source → Bool) : (s.withdrawOnLine p).rm.mem = s.rm.mem := rfl

@[simp] theorem State.withdrawOnLine_pending (s : State) (p : Source → Bool) :
    (s.withdrawOnLine p).pending = s.pending := rfl

@[simp] theorem State.modBinding_mem (s : State) (w : WinId) (f : Binding → Binding) :
    (s.modBinding w f).rm.mem = s.rm.mem := by
  simp only [State.modBinding]
  (repeat' split) <;> simp

@[simp] theorem State.modBinding_pending (s : State) (w : WinId) (f : Binding → Binding) :
    (s.modBinding w f).pending = s.pending := by
  simp only [State.modBinding]
  (repeat' split) <;> simp

@[simp] theorem State.contextFreed_mem (s : State) : (s.contextFreed).rm.mem = s.rm.mem := by
  simp only [State.contextFreed]
  refine State.foldl_mem _ (fun t a => ?_) _ _
  split <;> rfl

@[simp] theorem State.contextFreed_pending (s : State) : (s.contextFreed).pending = s.pending := by
  simp only [State.contextFreed]
  refine State.foldl_pending _ (fun t a => ?_) _ _
  split <;> rfl

@[simp] theorem State.freeContext_mem (s : State) (i : Fin 2) : (s.freeContext i).rm.mem = s.rm.mem := by
  simp [State.freeContext]

@[simp] theorem State.freeContext_pending (s : State) (i : Fin 2) : (s.freeContext i).pending = s.pending := by
  simp [State.freeContext]

@[simp] theorem State.withdrawRefreshReq_mem (s : State) (w : WinId) : (s.withdrawRefreshReq w).rm.mem = s.rm.mem := rfl

@[simp] theorem State.withdrawRefreshReq_pending (s : State) (w : WinId) :
    (s.withdrawRefreshReq w).pending = s.pending := rfl

@[simp] theorem State.releaseReservation_mem (s : State) (w : WinId) : (s.releaseReservation w).rm.mem = s.rm.mem := by
  unfold State.releaseReservation
  split <;> simp

@[simp] theorem State.releaseReservation_pending (s : State) (w : WinId) :
    (s.releaseReservation w).pending = s.pending := by
  unfold State.releaseReservation
  split <;> simp

@[simp] theorem State.releaseBound_mem (s : State) (w : WinId) : (s.releaseBound w).rm.mem = s.rm.mem := by
  unfold State.releaseBound
  split <;> simp

@[simp] theorem State.releaseBound_pending (s : State) (w : WinId) : (s.releaseBound w).pending = s.pending := by
  unfold State.releaseBound
  split <;> simp

@[simp] theorem State.beginDelay_mem (s : State) (w : WinId) : (s.beginDelay w).rm.mem = s.rm.mem := by
  simp [State.beginDelay]

@[simp] theorem State.beginDelay_pending (s : State) (w : WinId) : (s.beginDelay w).pending = s.pending := by
  simp [State.beginDelay]

@[simp] theorem State.enterGap_mem (s : State) (w : WinId) : (s.enterGap w).rm.mem = s.rm.mem := by
  simp [State.enterGap]

@[simp] theorem State.enterGap_pending (s : State) (w : WinId) : (s.enterGap w).pending = s.pending := by
  simp [State.enterGap]

@[simp] theorem State.enterUnsynced_mem (s : State) (w : WinId) : (s.enterUnsynced w).rm.mem = s.rm.mem := by
  simp [State.enterUnsynced]

@[simp] theorem State.enterUnsynced_pending (s : State) (w : WinId) : (s.enterUnsynced w).pending = s.pending := by
  simp [State.enterUnsynced]

@[simp] theorem State.enterSynced_mem (s : State) (w : WinId) (expected : Word) :
    (s.enterSynced w expected).rm.mem = s.rm.mem := rfl

@[simp] theorem State.enterSynced_pending (s : State) (w : WinId) (expected : Word) :
    (s.enterSynced w expected).pending = s.pending := rfl

@[simp] theorem State.enterStale_mem (s : State) (w : WinId) : (s.enterStale w).rm.mem = s.rm.mem := by
  simp [State.enterStale]

@[simp] theorem State.enterStale_pending (s : State) (w : WinId) : (s.enterStale w).pending = s.pending := by
  simp [State.enterStale]

@[simp] theorem State.bindContext_mem (s : State) (i : Fin 2) (w : WinId) (origin : GapOrigin) :
    (s.bindContext i w origin).rm.mem = s.rm.mem := rfl

@[simp] theorem State.bindContext_pending (s : State) (i : Fin 2) (w : WinId) (origin : GapOrigin) :
    (s.bindContext i w origin).pending = s.pending := rfl

@[simp] theorem State.requestDelayOver_mem (s : State) (w : WinId) : (s.requestDelayOver w).rm.mem = s.rm.mem := by
  unfold State.requestDelayOver
  split <;> simp

@[simp] theorem State.requestDelayOver_pending (s : State) (w : WinId) : (s.requestDelayOver w).pending = s.pending := by
  unfold State.requestDelayOver
  split <;> simp

@[simp] theorem State.refreshReqCompleted_mem (s : State) (w : WinId) : (s.refreshReqCompleted w).rm.mem = s.rm.mem := by
  unfold State.refreshReqCompleted
  split <;> simp

@[simp] theorem State.refreshReqCompleted_pending (s : State) (w : WinId) :
    (s.refreshReqCompleted w).pending = s.pending := by
  unfold State.refreshReqCompleted
  split <;> simp

@[simp] theorem State.leaveFollowed_mem (s : State) (w : WinId) : (s.leaveFollowed w).rm.mem = s.rm.mem := by
  simp only [State.leaveFollowed]
  split <;> simp

@[simp] theorem State.leaveFollowed_pending (s : State) (w : WinId) : (s.leaveFollowed w).pending = s.pending := by
  simp only [State.leaveFollowed]
  split <;> simp

@[simp] theorem State.withdrawOwnerFrames_mem (s : State) (p : Source → Bool) :
    (s.withdrawOwnerFrames p).rm.mem = s.rm.mem := rfl

@[simp] theorem State.withdrawOwnerFrames_pending (s : State) (p : Source → Bool) :
    (s.withdrawOwnerFrames p).pending = s.pending := rfl

@[simp] theorem State.settleGrants_mem (s : State) : (s.settleGrants).rm.mem = s.rm.mem := by
  simp only [State.settleGrants]
  refine State.foldl_mem _ (fun t a => ?_) _ _
  split <;> rfl

@[simp] theorem State.settleGrants_pending (s : State) : (s.settleGrants).pending = s.pending := by
  simp only [State.settleGrants]
  refine State.foldl_pending _ (fun t a => ?_) _ _
  split <;> rfl

@[simp] theorem State.startClaim_mem (s : State) (w : WinId) : (s.startClaim w).rm.mem = s.rm.mem := rfl

@[simp] theorem State.startClaim_pending (s : State) (w : WinId) : (s.startClaim w).pending = s.pending := rfl

@[simp] theorem State.withdrawClaim_mem (s : State) (w : WinId) : (s.withdrawClaim w).rm.mem = s.rm.mem := rfl

@[simp] theorem State.withdrawClaim_pending (s : State) (w : WinId) : (s.withdrawClaim w).pending = s.pending := rfl

@[simp] theorem State.exitClaiming_mem (s : State) (w : WinId) : (s.exitClaiming w).rm.mem = s.rm.mem := by
  unfold State.exitClaiming
  split <;> simp

@[simp] theorem State.exitClaiming_pending (s : State) (w : WinId) : (s.exitClaiming w).pending = s.pending := by
  unfold State.exitClaiming
  split <;> simp

@[simp] theorem State.endClaim_mem (s : State) (w : WinId) : (s.endClaim w).rm.mem = s.rm.mem := by
  simp [State.endClaim]

@[simp] theorem State.endClaim_pending (s : State) (w : WinId) : (s.endClaim w).pending = s.pending := by
  simp [State.endClaim]

@[simp] theorem State.claimCompleted_mem (s : State) (w : WinId) : (s.claimCompleted w).rm.mem = s.rm.mem := by
  unfold State.claimCompleted
  split <;> simp

@[simp] theorem State.claimCompleted_pending (s : State) (w : WinId) : (s.claimCompleted w).pending = s.pending := by
  unfold State.claimCompleted
  split <;> simp

@[simp] theorem State.becomeOwner_mem (s : State) (w : WinId) (generation : Byte) (nextSeq : Word) :
    (s.becomeOwner w generation nextSeq).rm.mem = s.rm.mem := by
  simp [State.becomeOwner]

@[simp] theorem State.becomeOwner_pending (s : State) (w : WinId) (generation : Byte) (nextSeq : Word) :
    (s.becomeOwner w generation nextSeq).pending = s.pending := by
  simp [State.becomeOwner]

@[simp] theorem State.takeover_mem (s : State) (w : WinId) : (s.takeover w).rm.mem = s.rm.mem := by
  simp [State.takeover]

@[simp] theorem State.takeover_pending (s : State) (w : WinId) : (s.takeover w).pending = s.pending := by
  simp [State.takeover]

@[simp] theorem State.becomeReturner_mem (s : State) (w : WinId) (granter : Station) (generation : Byte) (nextSeq : Word) :
    (s.becomeReturner w granter generation nextSeq).rm.mem = s.rm.mem := by
  simp [State.becomeReturner]

@[simp] theorem State.becomeReturner_pending (s : State) (w : WinId) (granter : Station) (generation : Byte) (nextSeq : Word) :
    (s.becomeReturner w granter generation nextSeq).pending = s.pending := by
  simp [State.becomeReturner]

@[simp] theorem State.foreign_mem (s : State) : (s.foreign).rm.mem = s.rm.mem := rfl

@[simp] theorem State.foreign_pending (s : State) : (s.foreign).pending = s.pending := rfl

@[simp] theorem State.ownConflict_mem (s : State) (w : WinId) (source : Station) :
    (s.ownConflict w source).rm.mem = s.rm.mem := rfl

@[simp] theorem State.ownConflict_pending (s : State) (w : WinId) (source : Station) :
    (s.ownConflict w source).pending = s.pending := rfl

@[simp] theorem State.adopt_mem (s : State) (w : WinId) (named : Station) (generation : Byte) :
    (s.adopt w named generation).rm.mem = s.rm.mem := rfl

@[simp] theorem State.adopt_pending (s : State) (w : WinId) (named : Station) (generation : Byte) :
    (s.adopt w named generation).pending = s.pending := rfl

@[simp] theorem State.handleDeny_mem (s : State) (w : WinId) (source target : Station) :
    (s.handleDeny w source target).rm.mem = s.rm.mem := by
  simp only [State.handleDeny]
  split <;> simp

@[simp] theorem State.handleDeny_pending (s : State) (w : WinId) (source target : Station) :
    (s.handleDeny w source target).pending = s.pending := by
  simp only [State.handleDeny]
  split <;> simp

@[simp] theorem State.loseClaim_mem (s : State) (w : WinId) (winner : Station) :
    (s.loseClaim w winner).rm.mem = s.rm.mem := by
  unfold State.loseClaim
  split <;> simp

@[simp] theorem State.loseClaim_pending (s : State) (w : WinId) (winner : Station) :
    (s.loseClaim w winner).pending = s.pending := by
  unfold State.loseClaim
  split <;> simp

@[simp] theorem State.checkNextSeq_mem (s : State) (w : WinId) (source : Station) (nextSeq : Word) :
    (s.checkNextSeq w source nextSeq).rm.mem = s.rm.mem := by
  simp only [State.checkNextSeq]
  split <;> simp

@[simp] theorem State.checkNextSeq_pending (s : State) (w : WinId) (source : Station) (nextSeq : Word) :
    (s.checkNextSeq w source nextSeq).pending = s.pending := by
  simp only [State.checkNextSeq]
  split <;> simp

@[simp] theorem State.takeGrant_mem (s : State) (w : WinId) (source : Station) (generation : Byte) (nextSeq : Word) (returned : Bool) :
    (s.takeGrant w source generation nextSeq returned).rm.mem = s.rm.mem := by
  simp only [State.takeGrant]
  (repeat' split) <;> simp

@[simp] theorem State.takeGrant_pending (s : State) (w : WinId) (source : Station) (generation : Byte) (nextSeq : Word) (returned : Bool) :
    (s.takeGrant w source generation nextSeq returned).pending = s.pending := by
  simp only [State.takeGrant]
  (repeat' split) <;> simp

@[simp] theorem State.handleGrantHere_mem (s : State) (w : WinId) (source : Station) (generation : Byte) (nextSeq : Word) (returned : Bool) :
    (s.handleGrantHere w source generation nextSeq returned).rm.mem = s.rm.mem := by
  simp only [State.handleGrantHere]
  (repeat' split) <;> simp

@[simp] theorem State.handleGrantHere_pending (s : State) (w : WinId) (source : Station) (generation : Byte) (nextSeq : Word) (returned : Bool) :
    (s.handleGrantHere w source generation nextSeq returned).pending = s.pending := by
  simp only [State.handleGrantHere]
  (repeat' split) <;> simp

@[simp] theorem State.grantCompleted_mem (s : State) (w : WinId) (generation : Byte) (nextSeq : Word) (grantee : Station) (returned : Bool) :
    (s.grantCompleted w generation nextSeq grantee returned).rm.mem = s.rm.mem := by
  simp only [State.grantCompleted]
  (repeat' split) <;> simp

@[simp] theorem State.grantCompleted_pending (s : State) (w : WinId) (generation : Byte) (nextSeq : Word) (grantee : Station) (returned : Bool) :
    (s.grantCompleted w generation nextSeq grantee returned).pending = s.pending := by
  simp only [State.grantCompleted]
  (repeat' split) <;> simp

@[simp] theorem State.denyCompleted_mem (s : State) (w : WinId) (target : Station) :
    (s.denyCompleted w target).rm.mem = s.rm.mem := rfl

@[simp] theorem State.denyCompleted_pending (s : State) (w : WinId) (target : Station) :
    (s.denyCompleted w target).pending = s.pending := rfl

@[simp] theorem State.takeoverCompleted_mem (s : State) (w : WinId) : (s.takeoverCompleted w).rm.mem = s.rm.mem := by
  unfold State.takeoverCompleted
  split <;> simp

@[simp] theorem State.takeoverCompleted_pending (s : State) (w : WinId) :
    (s.takeoverCompleted w).pending = s.pending := by
  unfold State.takeoverCompleted
  split <;> simp

@[simp] theorem State.restartOwnership_mem (s : State) (w : WinId) : (s.restartOwnership w).rm.mem = s.rm.mem := by
  simp only [State.restartOwnership]
  (repeat' split) <;> simp

@[simp] theorem State.restartOwnership_pending (s : State) (w : WinId) : (s.restartOwnership w).pending = s.pending := by
  simp only [State.restartOwnership]
  (repeat' split) <;> simp

@[simp] theorem State.restartOwnerships_mem (s : State) : (s.restartOwnerships).rm.mem = s.rm.mem := by
  simp only [State.restartOwnerships, State.modSe_rm]
  rw [State.foldl_mem _ (fun t a => by simp)]
  simp

@[simp] theorem State.restartOwnerships_pending (s : State) : (s.restartOwnerships).pending = s.pending := by
  simp only [State.restartOwnerships, State.modSe_pending]
  rw [State.foldl_pending _ (fun t a => by simp)]
  simp

@[simp] theorem State.afterFailure_mem (s : State) (w : WinId) : (s.afterFailure w).rm.mem = s.rm.mem := by
  simp only [State.afterFailure]
  (repeat' split) <;> simp

@[simp] theorem State.afterFailure_pending (s : State) (w : WinId) : (s.afterFailure w).pending = s.pending := by
  simp only [State.afterFailure]
  (repeat' split) <;> simp

@[simp] theorem State.failAttempt_mem (s : State) (w : WinId) : (s.failAttempt w).rm.mem = s.rm.mem := by
  simp [State.failAttempt]

@[simp] theorem State.failAttempt_pending (s : State) (w : WinId) : (s.failAttempt w).pending = s.pending := by
  simp [State.failAttempt]

@[simp] theorem State.completeRefresh_mem (s : State) (w : WinId) : (s.completeRefresh w).rm.mem = s.rm.mem := by
  simp only [State.completeRefresh]
  (repeat' split) <;> simp

@[simp] theorem State.completeRefresh_pending (s : State) (w : WinId) : (s.completeRefresh w).pending = s.pending := by
  simp only [State.completeRefresh]
  (repeat' split) <;> simp

@[simp] theorem State.sizeMismatch_mem (s : State) (w : WinId) (source : Station) (sequence : Option Word) :
    (s.sizeMismatch w source sequence).rm.mem = s.rm.mem := by
  simp [State.sizeMismatch]

@[simp] theorem State.sizeMismatch_pending (s : State) (w : WinId) (source : Station) (sequence : Option Word) :
    (s.sizeMismatch w source sequence).pending = s.pending := by
  simp [State.sizeMismatch]

@[simp] theorem State.deferRecord_mem (s : State) (w : WinId) (source : Station) (b : Binding) (a : Attempt) (r : PostRecord) :
    (s.deferRecord w source b a r).rm.mem = s.rm.mem := by
  simp only [State.deferRecord]
  (repeat' split) <;> simp

@[simp] theorem State.deferRecord_pending (s : State) (w : WinId) (source : Station) (b : Binding) (a : Attempt) (r : PostRecord) :
    (s.deferRecord w source b a r).pending = s.pending := by
  simp only [State.deferRecord]
  (repeat' split) <;> simp

@[simp] theorem State.contextRecord_mem (s : State) (w : WinId) (source : Station) (r : PostRecord) :
    (s.contextRecord w source r).rm.mem = s.rm.mem := by
  simp only [State.contextRecord]
  (repeat' split) <;> simp

@[simp] theorem State.contextRecord_pending (s : State) (w : WinId) (source : Station) (r : PostRecord) :
    (s.contextRecord w source r).pending = s.pending := by
  simp only [State.contextRecord]
  (repeat' split) <;> simp

@[simp] theorem State.seqBreak_mem (s : State) (w : WinId) (source : Station) :
    (s.seqBreak w source).rm.mem = s.rm.mem := by
  simp [State.seqBreak]

@[simp] theorem State.seqBreak_pending (s : State) (w : WinId) (source : Station) :
    (s.seqBreak w source).pending = s.pending := by
  simp [State.seqBreak]

@[simp] theorem State.behindResult_mem (s : State) (w : WinId) (source : Station) (seq : Word) (adopted : Bool) :
    (s.behindResult w source seq adopted).rm.mem = s.rm.mem := by
  simp only [State.behindResult]
  (repeat' split) <;> simp

@[simp] theorem State.behindResult_pending (s : State) (w : WinId) (source : Station) (seq : Word) (adopted : Bool) :
    (s.behindResult w source seq adopted).pending = s.pending := by
  simp only [State.behindResult]
  (repeat' split) <;> simp

@[simp] theorem State.takeRecords_mem (s : State) (w : WinId) (source : Station) (applied adopted : Bool) (z : List PostRecord) :
    (s.takeRecords w source applied adopted z).rm.mem = s.rm.mem := by
  induction z generalizing s applied with
  | nil => simp only [State.takeRecords]; split <;> simp
  | cons r rest ih => simp only [State.takeRecords]; (repeat' split) <;> simp [ih]

@[simp] theorem State.takeRecords_pending (s : State) (w : WinId) (source : Station) (applied adopted : Bool) (z : List PostRecord) :
    (s.takeRecords w source applied adopted z).pending = s.pending := by
  induction z generalizing s applied with
  | nil => simp only [State.takeRecords]; split <;> simp
  | cons r rest ih => simp only [State.takeRecords]; (repeat' split) <;> simp [ih]

@[simp] theorem State.takeMark_mem (s : State) (w : WinId) (source : Station) (lastSeq : Word) (adopted : Bool) :
    (s.takeMark w source lastSeq adopted).rm.mem = s.rm.mem := by
  simp only [State.takeMark]
  (repeat' split) <;> simp

@[simp] theorem State.takeMark_pending (s : State) (w : WinId) (source : Station) (lastSeq : Word) (adopted : Bool) :
    (s.takeMark w source lastSeq adopted).pending = s.pending := by
  simp only [State.takeMark]
  (repeat' split) <;> simp

/-- A binding made at a join or a suppression keeps it. -/
theorem State.bindAlready_mem {s t : State} {w : WinId} (h : s.bindAlready w = some t) : t.rm.mem = s.rm.mem := by
  simp only [State.bindAlready] at h
  split at h
  · simp only [Option.some.injEq] at h; subst h; simp
  · simp only [Option.map_eq_some_iff] at h
    obtain ⟨i, _, rfl⟩ := h
    simp

/-- A binding made at a join or a suppression keeps it. -/
theorem State.bindAlready_pending {s t : State} {w : WinId} (h : s.bindAlready w = some t) : t.pending = s.pending := by
  simp only [State.bindAlready] at h
  split at h
  · simp only [Option.some.injEq] at h; subst h; simp
  · simp only [Option.map_eq_some_iff] at h
    obtain ⟨i, _, rfl⟩ := h
    simp

@[simp] theorem State.suppress_mem (s : State) (w : WinId) (pageCount : Byte) :
    (s.suppress w pageCount).rm.mem = s.rm.mem := by
  simp only [State.suppress]
  split
  · rfl
  · split
    all_goals first
      | rfl
      | (cases h : s.bindAlready w with
         | none => rfl
         | some t => exact State.bindAlready_mem h)

@[simp] theorem State.suppress_pending (s : State) (w : WinId) (pageCount : Byte) :
    (s.suppress w pageCount).pending = s.pending := by
  simp only [State.suppress]
  split
  · rfl
  · split
    all_goals first
      | rfl
      | (cases h : s.bindAlready w with
         | none => rfl
         | some t => exact State.bindAlready_pending h)

@[simp] theorem State.answerRequest_mem (s : State) (w : WinId) (source : Station) (pageCount : Byte) :
    (s.answerRequest w source pageCount).rm.mem = s.rm.mem := by
  simp only [State.answerRequest]
  (repeat' split) <;> simp

@[simp] theorem State.answerRequest_pending (s : State) (w : WinId) (source : Station) (pageCount : Byte) :
    (s.answerRequest w source pageCount).pending = s.pending := by
  simp only [State.answerRequest]
  (repeat' split) <;> simp

@[simp] theorem State.takeBegin_mem (s : State) (w : WinId) (source : Station) (sweepId : Byte) (snapshot : Word) (pageCount : Byte) :
    (s.takeBegin w source sweepId snapshot pageCount).rm.mem = s.rm.mem := by
  simp only [State.takeBegin]
  (repeat' split) <;> simp

@[simp] theorem State.takeBegin_pending (s : State) (w : WinId) (source : Station) (sweepId : Byte) (snapshot : Word) (pageCount : Byte) :
    (s.takeBegin w source sweepId snapshot pageCount).pending = s.pending := by
  simp only [State.takeBegin]
  (repeat' split) <;> simp

@[simp] theorem State.joinSweep_mem (s : State) (w : WinId) (source : Station) (sweepId : Byte) (snapshot : Word) (pageCount : Byte) :
    (s.joinSweep w source sweepId snapshot pageCount).rm.mem = s.rm.mem := by
  simp only [State.joinSweep]
  split
  · rfl
  · split
    · rename_i h
      simpa using State.bindAlready_mem h
    · split <;> simp

@[simp] theorem State.joinSweep_pending (s : State) (w : WinId) (source : Station) (sweepId : Byte) (snapshot : Word) (pageCount : Byte) :
    (s.joinSweep w source sweepId snapshot pageCount).pending = s.pending := by
  simp only [State.joinSweep]
  split
  · rfl
  · split
    · rename_i h
      simpa using State.bindAlready_pending h
    · split <;> simp

@[simp] theorem State.followBegin_mem (s : State) (w : WinId) (source : Station) (sweepId : Byte) (snapshot : Word) (pageCount : Byte) (origin : Origin) :
    (s.followBegin w source sweepId snapshot pageCount origin).rm.mem = s.rm.mem := by
  simp only [State.followBegin]
  (repeat' split) <;> simp

@[simp] theorem State.followBegin_pending (s : State) (w : WinId) (source : Station) (sweepId : Byte) (snapshot : Word) (pageCount : Byte) (origin : Origin) :
    (s.followBegin w source sweepId snapshot pageCount origin).pending = s.pending := by
  simp only [State.followBegin]
  (repeat' split) <;> simp

@[simp] theorem State.takePage_mem (s : State) (w : WinId) (source : Station) (sweepId pageIndex : Byte) (data : List Byte) :
    (s.takePage w source sweepId pageIndex data).rm.mem = s.rm.mem := by
  simp only [State.takePage]
  (repeat' split) <;> simp

@[simp] theorem State.takePage_pending (s : State) (w : WinId) (source : Station) (sweepId pageIndex : Byte) (data : List Byte) :
    (s.takePage w source sweepId pageIndex data).pending = s.pending := by
  simp only [State.takePage]
  (repeat' split) <;> simp

@[simp] theorem State.applyDeferred_mem (s : State) (w : WinId) (z : List PostRecord) :
    (s.applyDeferred w z).rm.mem = s.rm.mem := by
  unfold State.applyDeferred
  split <;> simp

@[simp] theorem State.applyDeferred_pending (s : State) (w : WinId) (z : List PostRecord) :
    (s.applyDeferred w z).pending = s.pending := by
  unfold State.applyDeferred
  split <;> simp

@[simp] theorem State.takeEnd_mem (s : State) (w : WinId) (source : Station) (sweepId : Byte) (abandoned : Bool) :
    (s.takeEnd w source sweepId abandoned).rm.mem = s.rm.mem := by
  simp only [State.takeEnd]
  (repeat' split) <;> simp

@[simp] theorem State.takeEnd_pending (s : State) (w : WinId) (source : Station) (sweepId : Byte) (abandoned : Bool) :
    (s.takeEnd w source sweepId abandoned).pending = s.pending := by
  simp only [State.takeEnd]
  (repeat' split) <;> simp

@[simp] theorem State.acceptMessage_mem (s : State) (m : InMessage) : (s.acceptMessage m).rm.mem = s.rm.mem := by
  simp only [State.acceptMessage]
  (repeat' split) <;> simp

@[simp] theorem State.acceptMessage_pending (s : State) (m : InMessage) : (s.acceptMessage m).pending = s.pending := by
  simp only [State.acceptMessage]
  (repeat' split) <;> simp

@[simp] theorem State.handleMessage_mem (s : State) (source : Station) (destination urgency kind subkind : Byte) (payload : List Byte) :
    (s.handleMessage source destination urgency kind subkind payload).rm.mem = s.rm.mem := by
  unfold State.handleMessage
  split <;> simp

@[simp] theorem State.handleMessage_pending (s : State) (source : Station) (destination urgency kind subkind : Byte) (payload : List Byte) :
    (s.handleMessage source destination urgency kind subkind payload).pending = s.pending := by
  unfold State.handleMessage
  split <;> simp

@[simp] theorem State.messageCompleted_mem (s : State) : (s.messageCompleted).rm.mem = s.rm.mem := rfl

@[simp] theorem State.messageCompleted_pending (s : State) : (s.messageCompleted).pending = s.pending := rfl

@[simp] theorem State.restartClaim_mem (s : State) (w : WinId) (source : Station) :
    (s.restartClaim w source).rm.mem = s.rm.mem := by
  simp only [State.restartClaim]
  split <;> simp

@[simp] theorem State.restartClaim_pending (s : State) (w : WinId) (source : Station) :
    (s.restartClaim w source).pending = s.pending := by
  simp only [State.restartClaim]
  split <;> simp

@[simp] theorem State.assembled_mem (s : State) (f : OnLine) : (s.assembled f).rm.mem = s.rm.mem := by
  unfold State.assembled
  split <;> simp

@[simp] theorem State.assembled_pending (s : State) (f : OnLine) : (s.assembled f).pending = s.pending := by
  unfold State.assembled
  split <;> simp

@[simp] theorem State.setTx_mem (s : State) (tx : Transmitter) : (s.setTx tx).rm.mem = s.rm.mem := rfl

@[simp] theorem State.setTx_pending (s : State) (tx : Transmitter) : (s.setTx tx).pending = s.pending := rfl

@[simp] theorem State.releaseLine_mem (s : State) (f : OnLine) : (s.releaseLine f).rm.mem = s.rm.mem := by
  simp [State.releaseLine]

@[simp] theorem State.releaseLine_pending (s : State) (f : OnLine) : (s.releaseLine f).pending = s.pending := by
  simp [State.releaseLine]

@[simp] theorem State.enterFaulted_mem (s : State) : (s.enterFaulted).rm.mem = s.rm.mem := rfl

@[simp] theorem State.enterFaulted_pending (s : State) : (s.enterFaulted).pending = s.pending := rfl

@[simp] theorem State.tellSource_mem (s : State) (f : OnLine) : (s.tellSource f).rm.mem = s.rm.mem := by
  simp only [State.tellSource]
  (repeat' split) <;> simp

@[simp] theorem State.tellSource_pending (s : State) (f : OnLine) : (s.tellSource f).pending = s.pending := by
  simp only [State.tellSource]
  (repeat' split) <;> simp

@[simp] theorem State.beginCycle_mem (s : State) (write : Bool) (a : BitVec 16) (be : BitVec 2) (data : Word) (stage : Stage) :
    (s.beginCycle write a be data stage).rm.mem = s.rm.mem := rfl

@[simp] theorem State.beginCycle_pending (s : State) (write : Bool) (a : BitVec 16) (be : BitVec 2) (data : Word) (stage : Stage) :
    (s.beginCycle write a be data stage).pending = s.pending := rfl

@[simp] theorem State.drive_mem (s : State) (d : DataOut) : (s.drive d).rm.mem = s.rm.mem := rfl

@[simp] theorem State.drive_pending (s : State) (d : DataOut) : (s.drive d).pending = s.pending := rfl

@[simp] theorem State.waitForGrant_mem (s : State) : (s.waitForGrant).rm.mem = s.rm.mem := rfl

@[simp] theorem State.waitForGrant_pending (s : State) : (s.waitForGrant).pending = s.pending := rfl

@[simp] theorem State.refuseWrite_mem (s : State) (w : WinId) (a : BitVec 16) (be : BitVec 2) (data : Word) :
    (s.refuseWrite w a be data).rm.mem = s.rm.mem := by
  unfold State.refuseWrite
  split <;> simp

@[simp] theorem State.refuseWrite_pending (s : State) (w : WinId) (a : BitVec 16) (be : BitVec 2) (data : Word) :
    (s.refuseWrite w a be data).pending = s.pending := by
  unfold State.refuseWrite
  split <;> simp

@[simp] theorem State.takeWrite_mem (s : State) (w : WinId) (c : LocalCycle) : (s.takeWrite w c).rm.mem = s.rm.mem := by
  simp only [State.takeWrite]
  (repeat' split) <;> simp

@[simp] theorem State.takeWrite_pending (s : State) (w : WinId) (c : LocalCycle) :
    (s.takeWrite w c).pending = s.pending := by
  simp only [State.takeWrite]
  (repeat' split) <;> simp

@[simp] theorem State.enterListen_mem (s : State) : (s.enterListen).rm.mem = s.rm.mem := rfl

@[simp] theorem State.enterListen_pending (s : State) : (s.enterListen).pending = s.pending := rfl

@[simp] theorem State.startWindow_mem (s : State) (w : WinId) : (s.startWindow w).rm.mem = s.rm.mem := by
  simp only [State.startWindow]
  (repeat' split) <;> simp

@[simp] theorem State.startWindow_pending (s : State) (w : WinId) : (s.startWindow w).pending = s.pending := by
  simp only [State.startWindow]
  (repeat' split) <;> simp

@[simp] theorem State.firstOnline_mem (s : State) : (s.firstOnline).rm.mem = s.rm.mem := by
  simp only [State.firstOnline]
  rw [State.foldl_mem _ (fun t a => by simp)]
  simp

@[simp] theorem State.firstOnline_pending (s : State) : (s.firstOnline).pending = s.pending := by
  simp only [State.firstOnline]
  rw [State.foldl_pending _ (fun t a => by simp)]
  simp

@[simp] theorem State.controlCycle_mem (s : State) (write : Bool) (a : BitVec 16) (be : BitVec 2) (data : Word) :
    (s.controlCycle write a be data).rm.mem = s.rm.mem := rfl

@[simp] theorem State.controlCycle_pending (s : State) (write : Bool) (a : BitVec 16) (be : BitVec 2) (data : Word) :
    (s.controlCycle write a be data).pending = s.pending := rfl

@[simp] theorem State.controlRead_mem (s : State) (off : Nat) (be : BitVec 2) (value : Word) :
    (s.controlRead off be value).rm.mem = s.rm.mem := rfl

@[simp] theorem State.controlRead_pending (s : State) (off : Nat) (be : BitVec 2) (value : Word) :
    (s.controlRead off be value).pending = s.pending := rfl

@[simp] theorem State.captureTime_mem (s : State) : (s.captureTime).rm.mem = s.rm.mem := rfl

@[simp] theorem State.captureTime_pending (s : State) : (s.captureTime).pending = s.pending := rfl

@[simp] theorem State.releaseTime_mem (s : State) : (s.releaseTime).rm.mem = s.rm.mem := rfl

@[simp] theorem State.releaseTime_pending (s : State) : (s.releaseTime).pending = s.pending := rfl

@[simp] theorem State.captureRecord_mem (s : State) (w : WinId) : (s.captureRecord w).rm.mem = s.rm.mem := rfl

@[simp] theorem State.captureRecord_pending (s : State) (w : WinId) : (s.captureRecord w).pending = s.pending := rfl

@[simp] theorem State.afterRead_mem (s : State) (off : Nat) : (s.afterRead off).rm.mem = s.rm.mem := by
  unfold State.afterRead
  (repeat' split) <;> simp

@[simp] theorem State.afterRead_pending (s : State) (off : Nat) : (s.afterRead off).pending = s.pending := by
  unfold State.afterRead
  (repeat' split) <;> simp

@[simp] theorem State.readControl_mem (s : State) (a : BitVec 16) (be : BitVec 2) :
    (s.readControl a be).rm.mem = s.rm.mem := by
  simp only [State.readControl]
  split <;> simp

@[simp] theorem State.readControl_pending (s : State) (a : BitVec 16) (be : BitVec 2) :
    (s.readControl a be).pending = s.pending := by
  simp only [State.readControl]
  split <;> simp

@[simp] theorem State.beginReplicaRead_mem (s : State) (a : BitVec 16) (be : BitVec 2) :
    (s.beginReplicaRead a be).rm.mem = s.rm.mem := by
  unfold State.beginReplicaRead
  split <;> simp

@[simp] theorem State.beginReplicaRead_pending (s : State) (a : BitVec 16) (be : BitVec 2) :
    (s.beginReplicaRead a be).pending = s.pending := by
  unfold State.beginReplicaRead
  split <;> simp

@[simp] theorem State.writeArg_mem (s : State) (i : Nat) (be : BitVec 2) (data : Word) :
    (s.writeArg i be data).rm.mem = s.rm.mem := by
  unfold State.writeArg
  split <;> simp

@[simp] theorem State.writeArg_pending (s : State) (i : Nat) (be : BitVec 2) (data : Word) :
    (s.writeArg i be data).pending = s.pending := by
  unfold State.writeArg
  split <;> simp

@[simp] theorem State.storeControl_mem (s : State) (off : Nat) (be : BitVec 2) (data : Word) :
    (s.storeControl off be data).rm.mem = s.rm.mem := by
  simp only [State.storeControl]
  (repeat' split) <;> simp

@[simp] theorem State.storeControl_pending (s : State) (off : Nat) (be : BitVec 2) (data : Word) :
    (s.storeControl off be data).pending = s.pending := by
  simp only [State.storeControl]
  (repeat' split) <;> simp

@[simp] theorem State.reply_mem (s : State) (code : Word) (result : CommandResult) (reason : Reason) (probe : ProbeFields) :
    (s.reply code result reason probe).rm.mem = s.rm.mem := rfl

@[simp] theorem State.reply_pending (s : State) (code : Word) (result : CommandResult) (reason : Reason) (probe : ProbeFields) :
    (s.reply code result reason probe).pending = s.pending := rfl

@[simp] theorem State.done_mem (s : State) (code : Word) : (s.done code).rm.mem = s.rm.mem := rfl

@[simp] theorem State.done_pending (s : State) (code : Word) : (s.done code).pending = s.pending := rfl

@[simp] theorem State.refuse_mem (s : State) (code : Word) (reason : Reason) :
    (s.refuse code reason).rm.mem = s.rm.mem := rfl

@[simp] theorem State.refuse_pending (s : State) (code : Word) (reason : Reason) :
    (s.refuse code reason).pending = s.pending := rfl

@[simp] theorem State.restartLine_mem (s : State) : (s.restartLine).rm.mem = s.rm.mem := rfl

@[simp] theorem State.restartLine_pending (s : State) : (s.restartLine).pending = s.pending := rfl

@[simp] theorem State.restartContext_mem (s : State) (i : Fin 2) : (s.restartContext i).rm.mem = s.rm.mem := by
  unfold State.restartContext
  split <;> simp

@[simp] theorem State.restartContext_pending (s : State) (i : Fin 2) : (s.restartContext i).pending = s.pending := by
  unfold State.restartContext
  split <;> simp

@[simp] theorem State.failLoad_mem (s : State) (r : LoadResult) : (s.failLoad r).rm.mem = s.rm.mem := rfl

@[simp] theorem State.failLoad_pending (s : State) (r : LoadResult) : (s.failLoad r).pending = s.pending := rfl

@[simp] theorem State.recordDefaulted_mem (s : State) : (s.recordDefaulted).rm.mem = s.rm.mem := rfl

@[simp] theorem State.recordDefaulted_pending (s : State) : (s.recordDefaulted).pending = s.pending := rfl

@[simp] theorem State.recordDefaultedTimes_mem (s : State) (z : Nat) : (s.recordDefaultedTimes z).rm.mem = s.rm.mem := by
  induction z generalizing s with
  | zero => rfl
  | succ n ih => simp [State.recordDefaultedTimes, ih]

@[simp] theorem State.recordDefaultedTimes_pending (s : State) (z : Nat) :
    (s.recordDefaultedTimes z).pending = s.pending := by
  induction z generalizing s with
  | zero => rfl
  | succ n ih => simp [State.recordDefaultedTimes, ih]

@[simp] theorem State.takeWindows_mem (s : State) (img : List Byte) : (s.takeWindows img).rm.mem = s.rm.mem := by
  exact State.foldl_mem _ (fun t a => by simp) _ _

@[simp] theorem State.takeWindows_pending (s : State) (img : List Byte) : (s.takeWindows img).pending = s.pending := by
  exact State.foldl_pending _ (fun t a => by simp) _ _

@[simp] theorem State.endLoad_mem (s : State) (img : List Byte) : (s.endLoad img).rm.mem = s.rm.mem := rfl

@[simp] theorem State.endLoad_pending (s : State) (img : List Byte) : (s.endLoad img).pending = s.pending := rfl

@[simp] theorem State.acceptImage_mem (s : State) (img : List Byte) : (s.acceptImage img).rm.mem = s.rm.mem := by
  simp [State.acceptImage]

@[simp] theorem State.acceptImage_pending (s : State) (img : List Byte) : (s.acceptImage img).pending = s.pending := by
  simp [State.acceptImage]

end Sys2Proof.Machine
end

