-- ==== Sys2Proof/Laws/Writes.lean ====
section
/-!
SUPPORT. The operations that write the replica keep its canonical form, and leave the queue of waiting commands alone.
-/

namespace Sys2Proof.Machine

/-- Bytes written to the replica keep its canonical form. -/
@[simp] theorem State.writeReplica_wf {s : State} (h : Memory.wf s.rm.mem = true) (a : Nat) (bs : List Byte) :
    Memory.wf (s.writeReplica a bs).rm.mem = true := Memory.wf_writeBytes a bs h

@[simp] theorem State.localWriteEffect_pending (s : State) (c : LocalCycle) :
    (s.localWriteEffect c).pending = s.pending := by
  simp only [State.localWriteEffect]
  split <;> simp [*]

@[simp] theorem State.localWriteEffect_wf {s : State} (h : Memory.wf s.rm.mem = true) (c : LocalCycle) :
    Memory.wf (s.localWriteEffect c).rm.mem = true := by
  unfold State.localWriteEffect
  (repeat' split) <;> simp [Memory.wf_writeBytes, *]

@[simp] theorem State.endLocalWrite_pending (s : State) (c : LocalCycle) :
    (s.endLocalWrite c).pending = s.pending := by
  simp [State.endLocalWrite, *]

@[simp] theorem State.endLocalWrite_wf {s : State} (h : Memory.wf s.rm.mem = true) (c : LocalCycle) :
    Memory.wf (s.endLocalWrite c).rm.mem = true := by
  simp [State.endLocalWrite, *]

@[simp] theorem State.finishTaken_pending (s : State) (w : WinId) :
    (s.finishTaken w).pending = s.pending := by
  simp only [State.finishTaken]
  (repeat' split) <;> simp [*]

@[simp] theorem State.finishTaken_wf {s : State} (h : Memory.wf s.rm.mem = true) (w : WinId) :
    Memory.wf (s.finishTaken w).rm.mem = true := by
  simp only [State.finishTaken]
  (repeat' split) <;> simp [*]

@[simp] theorem State.writerEffect_pending (s : State) (z : Work) :
    (s.writerEffect z).pending = s.pending := by
  simp only [State.writerEffect]
  split <;> simp [*]

@[simp] theorem State.writerEffect_wf {s : State} (h : Memory.wf s.rm.mem = true) (z : Work) :
    Memory.wf (s.writerEffect z).rm.mem = true := by
  cases z <;> simp [State.writerEffect, Memory.wf_writeBytes, *]

@[simp] theorem State.endWriting_pending (s : State) (wk : Work) :
    (s.endWriting wk).pending = s.pending := by
  simp only [State.endWriting]
  (repeat' split) <;> simp [*]

@[simp] theorem State.endWriting_wf {s : State} (h : Memory.wf s.rm.mem = true) (wk : Work) :
    Memory.wf (s.endWriting wk).rm.mem = true := by
  simp only [State.endWriting]
  (repeat' split) <;> simp [*]

@[simp] theorem State.settleWriter_pending (s : State) (w : WinId) :
    (s.settleWriter w).pending = s.pending := by
  simp only [State.settleWriter]
  (repeat' split) <;> simp [*]

@[simp] theorem State.settleWriter_wf {s : State} (h : Memory.wf s.rm.mem = true) (w : WinId) :
    Memory.wf (s.settleWriter w).rm.mem = true := by
  simp only [State.settleWriter]
  (repeat' split) <;> simp [*]

@[simp] theorem State.enterGranting_pending (s : State) (w : WinId) (claimant : Station) :
    (s.enterGranting w claimant).pending = s.pending := by
  simp [State.enterGranting, *]

@[simp] theorem State.enterGranting_wf {s : State} (h : Memory.wf s.rm.mem = true) (w : WinId) (claimant : Station) :
    Memory.wf (s.enterGranting w claimant).rm.mem = true := by
  simp [State.enterGranting, *]

@[simp] theorem State.yieldTo_pending (s : State) (w : WinId) (owner : Station) (generation : Byte) (source : Station) :
    (s.yieldTo w owner generation source).pending = s.pending := by
  simp [State.yieldTo, *]

@[simp] theorem State.yieldTo_wf {s : State} (h : Memory.wf s.rm.mem = true) (w : WinId) (owner : Station) (generation : Byte) (source : Station) :
    Memory.wf (s.yieldTo w owner generation source).rm.mem = true := by
  simp [State.yieldTo, *]

@[simp] theorem State.judgeRival_pending (s : State) (w : WinId) (generation : Byte) (named source : Station) :
    (s.judgeRival w generation named source).pending = s.pending := by
  simp only [State.judgeRival]
  split <;> simp [*]

@[simp] theorem State.judgeRival_wf {s : State} (h : Memory.wf s.rm.mem = true) (w : WinId) (generation : Byte) (named source : Station) :
    Memory.wf (s.judgeRival w generation named source).rm.mem = true := by
  simp only [State.judgeRival]
  split <;> simp [*]

@[simp] theorem State.handleClaim_pending (s : State) (w : WinId) (source : Station) :
    (s.handleClaim w source).pending = s.pending := by
  simp only [State.handleClaim]
  (repeat' split) <;> simp [*]

@[simp] theorem State.handleClaim_wf {s : State} (h : Memory.wf s.rm.mem = true) (w : WinId) (source : Station) :
    Memory.wf (s.handleClaim w source).rm.mem = true := by
  simp only [State.handleClaim]
  (repeat' split) <;> simp [*]

@[simp] theorem State.handleGrantElsewhere_pending (s : State) (w : WinId) (source grantee : Station) (generation : Byte) (nextSeq : Word) :
    (s.handleGrantElsewhere w source grantee generation nextSeq).pending = s.pending := by
  simp only [State.handleGrantElsewhere]
  (repeat' split) <;> simp [*]

@[simp] theorem State.handleGrantElsewhere_wf {s : State} (h : Memory.wf s.rm.mem = true) (w : WinId) (source grantee : Station) (generation : Byte) (nextSeq : Word) :
    Memory.wf (s.handleGrantElsewhere w source grantee generation nextSeq).rm.mem = true := by
  simp only [State.handleGrantElsewhere]
  (repeat' split) <;> simp [*]

@[simp] theorem State.handleTakeover_pending (s : State) (w : WinId) (source : Station) (generation : Byte) (nextSeq : Word) :
    (s.handleTakeover w source generation nextSeq).pending = s.pending := by
  simp only [State.handleTakeover]
  (repeat' split) <;> simp [*]

@[simp] theorem State.handleTakeover_wf {s : State} (h : Memory.wf s.rm.mem = true) (w : WinId) (source : Station) (generation : Byte) (nextSeq : Word) :
    Memory.wf (s.handleTakeover w source generation nextSeq).rm.mem = true := by
  simp only [State.handleTakeover]
  (repeat' split) <;> simp [*]

@[simp] theorem State.handleFor_pending (s : State) (w : WinId) (source : Station) (body : Body) :
    (s.handleFor w source body).pending = s.pending := by
  cases body <;> simp only [State.handleFor, State.ownerChecked, State.shareOnly, State.sweepChecked] <;>
    (repeat' split) <;> first | (simp [*]; done) | contradiction

@[simp] theorem State.handleFor_wf {s : State} (h : Memory.wf s.rm.mem = true) (w : WinId) (source : Station) (body : Body) :
    Memory.wf (s.handleFor w source body).rm.mem = true := by
  cases body <;> simp only [State.handleFor, State.ownerChecked, State.shareOnly, State.sweepChecked] <;>
    (repeat' split) <;> first | (simp [*]; done) | contradiction

@[simp] theorem State.handleFrame_pending (s : State) (f : Frame) :
    (s.handleFrame f).pending = s.pending := by
  simp only [State.handleFrame]
  (repeat' split) <;> simp [*]

@[simp] theorem State.handleFrame_wf {s : State} (h : Memory.wf s.rm.mem = true) (f : Frame) :
    Memory.wf (s.handleFrame f).rm.mem = true := by
  simp only [State.handleFrame]
  (repeat' split) <;> simp [*]

@[simp] theorem State.runHold_pending (s : State) (n : Nat) :
    (State.runHold n s).pending = s.pending := by
  induction n generalizing s with
  | zero => rfl
  | succ n ih => simp only [State.runHold]; (repeat' split) <;> simp [*]

@[simp] theorem State.runHold_wf {s : State} (h : Memory.wf s.rm.mem = true) (n : Nat) :
    Memory.wf (State.runHold n s).rm.mem = true := by
  induction n generalizing s with
  | zero => first | rfl | exact h
  | succ n ih => simp only [State.runHold]; (repeat' split) <;> simp [*]

@[simp] theorem State.resumeHold_pending (s : State) :
    (s.resumeHold).pending = s.pending := by
  simp [State.resumeHold, *]

@[simp] theorem State.resumeHold_wf {s : State} (h : Memory.wf s.rm.mem = true) :
    Memory.wf (s.resumeHold).rm.mem = true := by
  simp [State.resumeHold, *]

@[simp] theorem State.holdFrame_pending (s : State) (f : Frame) :
    (s.holdFrame f).pending = s.pending := by
  simp only [State.holdFrame]
  split <;> simp [*]

@[simp] theorem State.holdFrame_wf {s : State} (h : Memory.wf s.rm.mem = true) (f : Frame) :
    Memory.wf (s.holdFrame f).rm.mem = true := by
  simp only [State.holdFrame]
  split <;> simp [*]

@[simp] theorem State.filterFrame_pending (s : State) (f : Frame) :
    (s.filterFrame f).pending = s.pending := by
  simp only [State.filterFrame]
  (repeat' split) <;> simp [*]

@[simp] theorem State.filterFrame_wf {s : State} (h : Memory.wf s.rm.mem = true) (f : Frame) :
    Memory.wf (s.filterFrame f).rm.mem = true := by
  simp only [State.filterFrame]
  (repeat' split) <;> simp [*]

@[simp] theorem State.finishFrame_pending (s : State) :
    (s.finishFrame).pending = s.pending := by
  simp [State.finishFrame, *]

@[simp] theorem State.finishFrame_wf {s : State} (h : Memory.wf s.rm.mem = true) :
    Memory.wf (s.finishFrame).rm.mem = true := by
  simp [State.finishFrame, *]

@[simp] theorem State.continueFrame_pending (s : State) :
    (s.continueFrame).pending = s.pending := by
  simp only [State.continueFrame]
  split <;> simp [*]

@[simp] theorem State.continueFrame_wf {s : State} (h : Memory.wf s.rm.mem = true) :
    Memory.wf (s.continueFrame).rm.mem = true := by
  simp only [State.continueFrame]
  split <;> simp [*]

@[simp] theorem State.closeFrame_pending (s : State) (stuffed : List Bit) :
    (s.closeFrame stuffed).pending = s.pending := by
  simp only [State.closeFrame]
  (repeat' split) <;> simp [*]

@[simp] theorem State.closeFrame_wf {s : State} (h : Memory.wf s.rm.mem = true) (stuffed : List Bit) :
    Memory.wf (s.closeFrame stuffed).rm.mem = true := by
  simp only [State.closeFrame]
  (repeat' split) <;> simp [*]

@[simp] theorem State.endAccess_pending (s : State) (c : LocalCycle) :
    (s.endAccess c).pending = s.pending := by
  simp only [State.endAccess]
  (repeat' split) <;> simp [*]

@[simp] theorem State.endAccess_wf {s : State} (h : Memory.wf s.rm.mem = true) (c : LocalCycle) :
    Memory.wf (s.endAccess c).rm.mem = true := by
  simp only [State.endAccess]
  (repeat' split) <;> simp [*]

@[simp] theorem State.claimExpires_pending (s : State) (w : WinId) :
    (s.claimExpires w).pending = s.pending := by
  simp only [State.claimExpires]
  (repeat' split) <;> simp [*]

@[simp] theorem State.claimExpires_wf {s : State} (h : Memory.wf s.rm.mem = true) (w : WinId) :
    Memory.wf (s.claimExpires w).rm.mem = true := by
  simp only [State.claimExpires]
  (repeat' split) <;> simp [*]

@[simp] theorem State.refreshWindow_pending (s : State) (w : WinId) :
    (s.refreshWindow w).pending = s.pending := by
  simp [State.refreshWindow, *]

@[simp] theorem State.refreshWindow_wf {s : State} (h : Memory.wf s.rm.mem = true) (w : WinId) :
    Memory.wf (s.refreshWindow w).rm.mem = true := by
  simp [State.refreshWindow, *]

@[simp] theorem State.restartHold_pending (s : State) :
    (s.restartHold).pending = s.pending := by
  simp only [State.restartHold]
  split <;> simp [*]

@[simp] theorem State.restartHold_wf {s : State} (h : Memory.wf s.rm.mem = true) :
    Memory.wf (s.restartHold).rm.mem = true := by
  simp only [State.restartHold]
  split <;> simp [*]

@[simp] theorem State.softRestart_pending (s : State) :
    (s.softRestart).pending = s.pending := by
  simp [State.softRestart, *]

@[simp] theorem State.softRestart_wf {s : State} (h : Memory.wf s.rm.mem = true) :
    Memory.wf (s.softRestart).rm.mem = true := by
  simp [State.softRestart, *]

end Sys2Proof.Machine
end

