-- ==== Sys2Proof/Tests/Slice0.lean ====
section
/-!
SUPPORT. The model's own tests: the well-formedness checks, one-step tests, and for every statement with hypotheses a
concrete state and operands that meet them.
-/

set_option Elab.async false

open Sys2Proof Sys2Proof.Machine

namespace Sys2Proof.Tests

/-! ### Small states -/

/-- The state after a command. -/
def after (i : Instr) (s : State) : State :=
  match exec i s with
  | .next t => t
  | .fault _ | .refused _ => s

/-- A descriptor in domain 0. -/
def descOf (role : Byte) (line : Word) (loc owner : Byte) : Descriptor :=
  { enable := true, roleCode := role, domain := 0, lineBase := line, pageCount := 2, localBase := loc, owner := owner,
    notifyVector := 2, notifyModeCode := 2, autoClaim := true, takeoverPermitted := false }

/-- An enabled window in domain 0. -/
def windowOf (role : Byte) (line : Word) (loc owner : Byte) (own : Ownership) (sync : SyncState) : Window :=
  { Window.initial with desc := descOf role line loc owner, standing := .enabled, ownership := own,
                        recordedOwner := owner, sync := sync,
                        expected := if sync = .synced then some 7 else none }

/-- Station 5, ONLINE and idle, with window 0 SHARE in FOLLOWER and SYNCED at 7, window 1 OWN, window 2 FOLLOW in GAP. -/
def base : State :=
  let s := State.reset
  let t : State :=
    { s with
      li := { s.li with line := .online, onlineSeen := true, recessiveRun := 20, lineTime := 100 },
      lp := { s.lp with inReset := false, loadResult := .good,
                        params := { station := 5, domainSet := 1, rateCode := 0, backoffFloor := 8, joinInterval := 8,
                                    markInterval := 16, refreshTimeout := 32, claimTimeout := 16, waitLimit := 50,
                                    eventVector := 0, messageVector := 1 } } }
  (((t.modWin 0 fun _ => windowOf 3 0x100 0x10 3 .follower .synced).modWin 1 fun _ =>
    { windowOf 1 0x200 0x20 5 .owner .unsynced with recordedOwner := 5 }).modWin 2 fun _ =>
    windowOf 2 0x300 0x30 3 .follower .gap).buildMaps

/-- `base` with window 0 changed. -/
def withShare (f : Window → Window) : State := base.modWin 0 f

/-- `base` in FRAME. -/
def receiving : State := base.modLi fun li => { li with rx := .frame [] }

/-- `base` with a frame of a source on the line. -/
def onLine (src : Source) (body : Body) (pagePending : Bool) : OnLine :=
  { source := src, frame := { urgency := 0, source := 5, domain := 0, body := body }, withdrawn := false,
    pagePending := pagePending, sent := 0 }

/-- A state with a frame in SEND. -/
def sending (s : State) (src : Source) (body : Body) : State :=
  s.modLi fun li => { li with tx := .send (onLine src body false) }

/-- A state with a local cycle in progress. -/
def inCycle (s : State) (c : LocalCycle) : State := s.modLp fun lp => { lp with cycle := some c }

/-- A state with a grant in progress. -/
def granting (s : State) (r : Requester) : State := s.modArb fun b => { b with granted := some r }

/-- A state with arguments. -/
def withArgs (s : State) (a b : Word) : State := s.modLp fun lp => { lp with args := #v[a, b, 0, 0] }

/-- A word write at the start of window 1. -/
def ownWrite (stage : Stage) : LocalCycle := { write := true, a := 0x1000, be := 3, data := 0xBEEF, stage := stage }

/-- A post entry of window 1. -/
def entry (seq offset : Word) (isSealed : Bool) : PostEntry :=
  { window := 1, seq := seq, offset := offset, data := [1, 2], sealed := isSealed }

/-- A record in order for window 0. -/
def record7 : PostRecord := { seq := 7, offset := 0x10, data := [0xAB, 0xCD] }

/-- A claim for base 0x100 from station 3. -/
def claimFrame : Frame := { urgency := 0, source := 3, domain := 0, body := .claim 0x100 }

/-- A direct message of length 1 from station 3. -/
def messageFrame (dest : Byte) : Frame :=
  { urgency := 1, source := 3, domain := 0, body := .message dest 1 40 0 [9] }

/-- The bits of a frame between its delimiters. -/
def contentOf (f : Frame) : List Bit := stuff (bitsOfBytes f.content)

/-! ### Well-formedness: an ill-formed term for each check -/

theorem test_wf_image : (Instr.configImageRead []).wf = false := by decide
theorem test_wf_stuffed : (Instr.frameReceived (List.replicate 7 dominant)).wf = false := by decide
theorem test_wf_private : (Instr.localWritePrivate 0x8000 3 0).wf = false := by decide
theorem test_wf_window : (Instr.localWriteWindow 0xFFFF 3 0).wf = false := by decide
theorem test_wf_unknown : (Instr.unknownCommand 13).wf = false ∧ (Instr.unknownCommand 14).wf = true := by decide
theorem test_wf_statusWord : (Instr.statusRecordWordRead 3 0 3).wf = false := by decide
theorem test_wf_control : (Instr.controlWrite 0x8041 3 0).wf = false ∧ (Instr.controlWrite 0x8050 3 0).wf = false ∧
    (Instr.controlWrite 0x7FFF 3 0).wf = false ∧ (Instr.controlWrite 0x8050 1 0).wf = true := by decide

/-- No row gives bits, so no word spells a command and the queue stays as it is. -/
theorem test_words : decodeTableWord 16 1 = none ∧ base.withFetchWord 16 1 = base := by decide +kernel

/-! ### The wire -/

/-- The delimiter's nine bits (R4), and R3's stuff bit after six equal bits. -/
theorem test_stuff : delimiter = [false, true, true, true, true, true, true, true, false] ∧
    stuff (List.replicate 7 true) = [true, true, true, true, true, true, false, true] := by decide

/-- The header of a CLAIM of station 3 in domain 2: urgency 0, source 3, kind 6, domain 2 (chapter 11). -/
theorem test_header :
    ({ urgency := 0, source := 3, domain := 2, body := .claim 0x100 } : Frame).header = 0b0000011001100010 := by decide

/-! ### Witnesses: steps, load and lookups -/

/-- A delay that has run out is taken before the next bt; one that a line row restarts in its last bt is not. -/
theorem test_expiry_after_bt :
    (base.modWin 2 fun x => { x with wait := .requestDelay 1 }).advance.beforeBt = some (.requestDelayExpiry 2) ∧
    ((base.modWin 2 fun x => { x with wait := .requestDelay 1 }).advance.beginDelay 2).beforeBt = none := by decide +kernel

theorem test_witness_EmptyQueueRowFirst :
    (fun s : State => s.pending = [] ∧ s.lp.inReset = false ∧ s.li.line.runs ∧ s.beforeBt = some (.requestDelayExpiry 2))
      (base.modWin 2 fun x => { x with wait := .requestDelay 0 }) := by decide +kernel

theorem test_witness_EmptyQueue : base.pending = [] ∧ base.lp.inReset = false ∧ base.li.line.runs ∧
    base.beforeBt = none ∧ State.reset.lp.inReset = true ∧
    (match step base with | .next t => decide (t.li.lineTime = 101 ∧ t.li.recessiveRun = 21) | _ => false) = true := by
  decide +kernel

/-- `base` with a SWEEP_DATA on the line that has driven all before its page, the page read granted. -/
def pageDue : State :=
  let o : OnLine := { onLine (.sweepData 1) (.sweepData 0x200 6 0 []) true with sent := 70 }
  granting (base.modLi fun li => { li with tx := .send o }) .sweepReader

theorem test_witness_BeforeBt :
    (base.modLi fun li => { li with line := .listen, joinTimer := .running 0 }).beforeBt = some .joinTimerExpiry ∧
    (base.modLi fun li => { li with line := .faulted, recoveryTimer := .running 0 }).beforeBt =
      some .recoveryTimerExpiry ∧
    (base.modWin 2 fun x => { x with wait := .requestDelay 0 }).windowRow 2 = some (.requestDelayExpiry 2) ∧
    (inCycle base (ownWrite (.heldWrite 1 50))).beforeBt = some .postWaitExpiry ∧
    (inCycle base (ownWrite (.heldWrite 1 49))).beforeBt = none ∧
    (base.modMu fun u => { u with outQueue := [{ destination := 3, urgency := 1, kind := 0, subkind := 0,
                                                 payload := [] }] }).beforeBt = some .transmitStart ∧
    pageDue.beforeBt = some .sweepPageReadGrant ∧ pageDue.grantRow = some .sweepPageReadGrant := by decide +kernel

/-- `base` with a frame of station `n` on the line, `sent` of its bits driven, and the sample LRX gives next. -/
def driving (n : Station) (sent : Nat) (send : Bool) (lrx : Bit) : State :=
  let f : OnLine := { onLine .message (.claim 0x100) false with
    frame := { urgency := 0, source := n, domain := 0, body := .claim 0x100 }, sent := sent }
  base.modLi fun li => { li with tx := if send then .send f else .arbitrate f, lrx := [lrx] }

theorem test_witness_ArbitrationBits :
    (wireOf ({ claimFrame with source := 5 } : Frame).content)[15]? = some recessive ∧
    Instr.arbitrationWon ∈ (driving 5 15 false recessive).tickEvents ∧
    Instr.arbitrationLost ∈ (driving 5 15 false dominant).tickEvents ∧
    Instr.transmitFault ∈ (driving 5 14 false recessive).tickEvents ∧
    (wireOf ({ claimFrame with source := 1 } : Frame).content)[16]? = some recessive ∧
    Instr.arbitrationWon ∉ (driving 1 15 false recessive).tickEvents ∧
    Instr.arbitrationWon ∈ (driving 1 16 false recessive).tickEvents ∧
    Instr.arbitrationLost ∈ (driving 1 16 false dominant).tickEvents := by decide +kernel

theorem test_witness_SendBits :
    (wireOf ({ claimFrame with source := 5 } : Frame).content).length = 70 ∧
    Instr.frameCompleted ∈ (driving 5 69 true dominant).tickEvents ∧
    Instr.transmitFault ∈ (driving 5 69 true recessive).tickEvents := by decide +kernel

/-- `base` with a receiver state and the sample LRX gives next. -/
def hearing (rx : Receiver) (lrx : Bit) : State := base.modLi fun li => { li with rx := rx, lrx := [lrx] }

theorem test_witness_ReceiverBits :
    (hearing (.frame []) dominant).len = false ∧
    Instr.openingDelimiter ∈ (hearing (.hunt (some 7)) dominant).tickEvents ∧
    Instr.stuffViolation .sevenDominant ∈
      (hearing (.frame (recessive :: List.replicate 6 dominant)) dominant).tickEvents ∧
    Instr.abort ∈ (hearing (.frame (List.replicate 7 recessive)) recessive).tickEvents ∧
    Instr.stuffViolation .missingAtClosing ∈
      (hearing (.frame (List.replicate 6 recessive ++ delimiter.dropLast)) dominant).tickEvents ∧
    Instr.frameReceived [recessive] ∈ (hearing (.frame (recessive :: delimiter.dropLast)) dominant).tickEvents ∧
    Instr.frameReceived [] ∈ (hearing (.frame (List.replicate 7 recessive)) dominant).tickEvents ∧
    Instr.abort ∉ ((driving 5 20 true recessive).modLi fun li =>
      { li with rx := .frame (List.replicate 7 recessive) }).tickEvents := by decide +kernel

theorem test_witness_RunBits :
    Instr.lineStuck ∈ ((hearing (.hunt none) dominant).modLi fun li => { li with dominantRun := 31 }).tickEvents ∧
    Instr.lineIdle ∈ ((hearing (.hunt none) recessive).modLi fun li => { li with recessiveRun := 15 }).tickEvents ∧
    Instr.yieldIntervalExpiry ∈
      ((hearing (.hunt none) recessive).modLi fun li => { li with recessiveRun := 47 }).tickEvents := by decide +kernel

/-- The bytes after the length of an image of station 5, domain 0, with window 0 OWN. -/
def imageBody : List Byte :=
  [5, 0, 1, 0, 8, 8, 0, 16, 32, 16, 0, 50, 0, 1] ++ [1, 1, 0, 1, 0, 2, 16, 0, 2, 2, 0, 0] ++ List.replicate 180 0 ++
    List.replicate 18 0

/-- An image body with its CRC. -/
def sealedImage (body : List Byte) : List Byte := body ++ bytesOfWord (crc ([0x5A, 0x3C, 0, 230] ++ body))

/-- The whole of it, with its CRC. -/
def imageRest : List Byte := sealedImage imageBody

/-- A state that waits for the image. -/
def loading : State := State.reset.modLp fun lp => { lp with inReset := false, load := .image }

set_option maxRecDepth 100000 in
theorem test_witness_Load : loading.lp.load = .image ∧ imageRest.length = 226 ∧ imageFault (wholeImage imageRest) = none ∧
    (∀ w : WinId, (loading.win w).standing = .notLoaded) ∧ (after .resetRelease State.reset).lp.load = .header ∧
    ((after (.configImageRead imageRest) loading).win 0).standing = .enabled := by decide +kernel

set_option maxRecDepth 100000 in
theorem test_witness_LoadFailures :
    (after (.configHeaderRead 0 230) (after .resetRelease State.reset)).lp.loadResult = .badMarker ∧
    (after (.configHeaderRead 0x5A3C 229) (after .resetRelease State.reset)).lp.loadResult = .badLength ∧
    (after (.configHeaderRead 0x5A3C 230) (after .resetRelease State.reset)).lp.load = .image ∧
    (after (.configImageRead (List.replicate 226 0)) loading).lp.loadResult = .badCrc := by decide +kernel

set_option maxRecDepth 100000 in
theorem test_witness_BadStation :
    (after (.configImageRead (sealedImage (31 :: imageBody.tail))) loading).lp.loadResult = .badStation := by
  decide +kernel

set_option maxRecDepth 100000 in
theorem test_witness_NoDomain :
    (after (.configImageRead (sealedImage (5 :: 0 :: 0 :: imageBody.drop 3))) loading).lp.loadResult = .noDomain := by
  decide +kernel

/-- An image with rate code 4, window 1 on window 0's local page 0x11 and filter 0's enable byte 2. -/
def faultyImage : List Byte :=
  sealedImage ([5, 0, 1, 4] ++ (imageBody.drop 4).take 22 ++ [1, 1, 0, 2, 0, 1, 17, 0, 2, 2, 0, 0] ++
    List.replicate 168 0 ++ [2, 0, 0] ++ List.replicate 15 0)

set_option maxRecDepth 100000 in
theorem test_witness_LoadEvents : loading.li.line = .offline ∧ loading.en.captureHold = false ∧
    loading.en.heldOccurrence = false ∧ imageFault (wholeImage faultyImage) = none ∧ faultyImage.length = 226 ∧
    ((after (.configImageRead faultyImage) loading).win 1).standing = .rejected 8 ∧
    (after (.configImageRead faultyImage) loading).lp.defaulted = 0x201 ∧
    (after (.configImageRead faultyImage) loading).en.record.cause = some .configDefaulted ∧
    (after (.configImageRead faultyImage) loading).en.moreEvents = 2 ∧
    (after (.configImageRead faultyImage) loading).en.pending = 1 := by decide +kernel

theorem test_witness_ChecksFailed : base.failsCheck 15 1 ∧ ¬base.failsCheck 0 1 ∧ ¬base.failsCheck 0 5 ∧
    base.failsCheck 15 5 ∧ ¬base.failsCheck 0 7 := by
  refine ⟨?_, ?_, ?_, ?_, ?_⟩ <;> simp only [State.failsCheck] <;> decide +kernel

theorem test_witness_Lookups : (base.win 0).standing = .enabled ∧ base.buildMaps.maps.exact 0 0x100 = some 0 ∧
    base.buildMaps.maps.ofLocalPage 0x11 = some 0 ∧ base.buildMaps.maps.ofLocalPage 0x12 = none := by decide +kernel

/-! ### Witnesses: the receiver -/

theorem test_witness_BrokenFrames : receiving.li.line.runs ∧ receiving.li.rx = .frame [] ∧ receiving.len = false ∧
    (after .abort receiving).en.counters[Counter.aborts.index] = 1 ∧
    (after (.stuffViolation .sevenDominant) receiving).li.dominantRun = 7 := by decide +kernel

theorem test_witness_BadContent :
    stuffedContentOk (List.replicate 6 true) = true ∧ destuff (List.replicate 6 true) = none ∧
    stuffedContentOk [true] = true ∧ destuff [true] = some [true] ∧ judgeContent [true] = .malformed ∧
    judgeContent (bitsOfBytes [0, 0, 0, 0]) = .crcError ∧
    judgeContent (bitsOfBytes ([0x42, 0xB0] ++ bytesOfWord (crc [0x42, 0xB0]))) = .unknownKind ∧
    (sending receiving .message (.claim 0)).len = true ∧
    (after (.frameReceived [true]) receiving).en.counters[Counter.malformed.index] = 1 := by decide +kernel

theorem test_witness_GoodFrame : judgeContent (bitsOfBytes claimFrame.content) = .good claimFrame ∧
    stuffedContentOk (contentOf claimFrame) = true ∧ destuff (contentOf claimFrame) = some (bitsOfBytes claimFrame.content) ∧
    claimFrame.source ≠ receiving.station ∧
    receiving.lp.params.domainSet.getLsbD claimFrame.domain.toNat = true := by decide +kernel

/-- A full hold whose head waits for a write. -/
def fullHold : State :=
  { receiving with rh := { slots := [claimFrame, claimFrame, messageFrame 5], work := some (.deferred 2 record7 []) } }

theorem test_witness_ContentIsTheBytes :
    (readFrame 0x0660 [1, 0]).map (·.headerBody) = some ([0x06, 0x60] ++ [1, 0]) ∧
    readFrame 0x0660 [1, 0, 0] = none := by decide +kernel

theorem test_witness_Overrun : fullHold.rh.slots = [claimFrame, claimFrame, messageFrame 5] ∧
    (after (.frameReceived (contentOf claimFrame)) fullHold).rh.slots = [claimFrame, claimFrame, claimFrame] ∧
    (after (.frameReceived (contentOf claimFrame)) fullHold).en.record.cause = some .holdOverrun := by decide +kernel

theorem test_witness_Appended :
    (after (.frameReceived (contentOf claimFrame))
      { fullHold with rh := { fullHold.rh with slots := [claimFrame] } }).rh.slots = [claimFrame, claimFrame] := by
  decide +kernel

theorem test_witness_FilterCases :
    (after (.frameReceived (contentOf { claimFrame with source := 5 })) receiving).en.record.cause =
      some .duplicateStation ∧
    (after (.frameReceived (contentOf { claimFrame with domain := 1 })) receiving).rh = receiving.rh ∧
    receiving.lp.params.domainSet.getLsbD 1 = false ∧
    (after (.frameReceived (contentOf (messageFrame 6))) receiving).mu = receiving.mu ∧
    receiving.maps.exact 0 0x999 = none ∧
    (after (.frameReceived (contentOf { claimFrame with body := .claim 0x999 })) receiving).rh = receiving.rh := by
  decide +kernel

/-- An UPDATE of window 0 in order, from its recorded owner. -/
def updateFrame : Frame := { urgency := 1, source := 3, domain := 0, body := .update 0x100 0 [record7] }

theorem test_witness_FoundWindow : receiving.rh = { slots := [], work := none } ∧
    receiving.maps.exact 0 0x100 = some 0 ∧ judgeContent (bitsOfBytes updateFrame.content) = .good updateFrame ∧
    (after (.frameReceived (contentOf claimFrame)) receiving).rh = { slots := [], work := none } ∧
    (after (.frameReceived (contentOf updateFrame)) receiving).rh =
      { slots := [updateFrame], work := some (.record 0 3 record7 [] false false) } := by decide +kernel

theorem test_witness_Message : judgeContent (bitsOfBytes (messageFrame 5).content) = .good (messageFrame 5) ∧
    stuffedContentOk (contentOf (messageFrame 5)) = true ∧ receiving.rh = { slots := [], work := none } ∧
    (after (.frameReceived (contentOf (messageFrame 5))) receiving).mu.inFifo =
      [{ source := 3, destination := 5, urgency := 1, kind := 40, subkind := 0, payload := [9] }] ∧
    (after (.frameReceived (contentOf (messageFrame 5))) receiving).en.pending = 2 ∧
    (after (.frameReceived (contentOf (messageFrame 31))) receiving).mu.inFifo = [] := by decide +kernel

/-- A message in the in FIFO. -/
def held : InMessage := { source := 3, destination := 5, urgency := 1, kind := 1, subkind := 0, payload := [] }

/-- A full in FIFO. -/
def fullFifo : State := receiving.modMu fun u => { u with inFifo := List.replicate 8 held }

theorem test_witness_FullFifo : 8 ≤ fullFifo.mu.inFifo.length ∧
    (after (.frameReceived (contentOf (messageFrame 5))) fullFifo).en.record.cause = some .messageOverflow := by
  decide +kernel

theorem test_witness_LineEvents : base.li.line.runs ∧ base.li.rx = .hunt none ∧
    (after .openingDelimiter base).li.rx = .frame [] ∧ (after .lineStuck base).en.record.cause = some .lineStuck := by
  decide +kernel

/-! ### Witnesses: transmission -/

/-- `base` with a post of window 1 at the queue's head. -/
def posting : State := { base with pq := { entries := [entry 0 0 false, entry 1 8 false], mergeHold := false } }

theorem test_witness_TransmitStart : posting.readyToSend ∧ posting.nextFrame.isSome = true ∧
    (after .transmitStart posting).pq.entries = [entry 0 0 true, entry 1 8 true] := by decide +kernel

/-- `base` with a source of every class but the last due. -/
def crowded : State :=
  { (posting.modWin 1 fun x => { x with markNow := true }) with
    ownerDue := [.claim 0], contexts := #v[.reserved 2, .free],
    se := { queue := [], current := some (Sweep.fresh 1 .start), idCounter := 0 } }

theorem test_witness_SourceClasses :
    crowded.nextFrame.map (·.source) = some (.claim 0) ∧
    ({ crowded with ownerDue := [] } : State).nextFrame.map (·.source) = some (.update 1 [0, 1]) ∧
    ({ crowded with ownerDue := [], pq := base.pq } : State).nextFrame.map (·.source) = some (.mark 1) ∧
    ({ base with contexts := crowded.contexts, se := crowded.se } : State).nextFrame.map (·.source) =
      some (.refreshReq 2) ∧
    ({ base with se := crowded.se } : State).nextFrame.map (·.source) = some (.sweepBegin 1) ∧
    ({ base with mu := { base.mu with outQueue := [{ destination := 3, urgency := 1, kind := 1, subkind := 1, payload := [] }] } } : State).nextFrame.map
      (·.source) = some .message ∧
    base.nextFrame = none := by decide +kernel

theorem test_witness_Sources :
    ({ base with ownerDue := [.grant 0] } : State).nextFrame.map (·.source) = some (.grant 0) ∧
    ({ base with ownerDue := [.deny 0 3] } : State).nextFrame.map (·.source) = some (.deny 0 3) ∧
    (({ base with ownerDue := [.takeover 0 4 9] } : State).nextFrame.map (·.frame.body)) = some (.takeover 0x100 4 9) ∧
    ({ base with se := { queue := [], current := some { Sweep.fresh 1 .start with phase := .data }, idCounter := 0 } } :
      State).nextFrame.map (·.source) = some (.sweepData 1) ∧
    ({ base with se := { queue := [], current := some { Sweep.fresh 1 .start with phase := .endDue }, idCounter := 0 } } :
      State).nextFrame.map (·.source) = some (.sweepEnd 1) := by decide +kernel

theorem test_witness_TakesFirst : posting.pq.takesFirst 1 2 := by
  refine ⟨by decide, by decide, by decide, by decide, Or.inr (by decide), by decide, ?_⟩
  intro e h
  exact absurd h (by simp [posting])

/-- A SWEEP_DATA of window 1 that waits for its page. -/
def pageWaits : State :=
  granting (base.modLi fun li => { li with tx := .arbitrate (onLine (.sweepData 1) (.sweepData 0x200 0 1 []) true) })
    .sweepReader

theorem test_witness_PageRead : pageWaits.rm.arb.granted = some .sweepReader ∧
    (after .sweepPageReadGrant pageWaits).rm.arb.granted = none ∧
    ((after .sweepPageReadGrant pageWaits).li.tx.onLine.any fun f => !f.pagePending) = true := by decide +kernel

/-- A frame in ARBITRATE. -/
def arbitrating : State := base.modLi fun li => { li with tx := .arbitrate (onLine .message (.claim 0) false) }

theorem test_witness_Arbitration : (after .arbitrationWon arbitrating).li.tx = .send (onLine .message (.claim 0) false) ∧
    (after .arbitrationLost arbitrating).li.tx = .idle ∧
    (after .arbitrationLost arbitrating).en.counters[Counter.arbLosses.index] = 1 := by decide +kernel

theorem test_witness_TransmitFault : arbitrating.li.tx.onLine.isSome = true ∧ arbitrating.li.line.runs ∧
    arbitrating.li.faults < 15 ∧ (after .transmitFault arbitrating).li.faults = 1 ∧
    (after .transmitFault (arbitrating.modLi fun li => { li with faults := 15 })).li.line = .faulted := by decide +kernel

theorem test_witness_Completed : (sending base .message (.claim 0)).li.tx = .send (onLine .message (.claim 0) false) ∧
    (after .frameCompleted (sending base .message (.claim 0))).li.yield = true ∧
    (after .frameCompleted (sending base (.mark 1) (.mark 0x200 0 0))).win 1 =
      { base.win 1 with markNow := false, markTimer := .running 16384 } := by decide +kernel

theorem test_witness_CompletedClaim :
    ((withShare fun x => { x with ownership := .claiming }).win 0).ownership = .claiming ∧
    ((after .frameCompleted (sending (withShare fun x => { x with ownership := .claiming }) (.claim 0) (.claim 0x100))).win
      0).claimTimer = .running 16384 ∧
    (after .frameCompleted (sending { base with ownerDue := [.deny 0 3, .deny 0 4] } (.deny 0 3) (.deny 0x100 3))).ownerDue =
      [.deny 0 4] := by decide +kernel

/-- An owned SHARE window whose TAKEOVER is on the line. -/
def announcing (current : Option Sweep) : State :=
  sending { (withShare fun x => { x with ownership := .owner }) with
      ownerDue := [.takeover 0 4 9, .deny 0 4], se := { queue := [], current := current, idCounter := 0 } }
    (.takeover 0) (.takeover 0x100 4 9)

theorem test_witness_CompletedTakeover : ((announcing none).win 0).ownership = .owner ∧
    (after .frameCompleted (announcing none)).ownerDue = [.deny 0 4] ∧
    (after .frameCompleted (announcing none)).se.current = some (Sweep.fresh 0 .takeover) ∧
    (after .frameCompleted (announcing (some (Sweep.fresh 1 .start)))).se.queue = [(0, .takeover)] ∧
    (after .frameCompleted (announcing (some { Sweep.fresh 0 .start with abandon := true }))).se.current =
      some { Sweep.fresh 0 .start with abandon := true, again := true } := by decide +kernel

/-- A sealed head, its UPDATE on the line, and a held write of window 1 behind it. -/
def updating : State :=
  inCycle (sending { base with pq := { entries := [entry 0 0 true] ++ [entry 1 8 false], mergeHold := false } }
    (.update 1 [0]) (.update 0x200 0 [])) (ownWrite (.heldWrite 1 3))

theorem test_witness_CompletedUpdate : updating.pq.entries = [entry 0 0 true] ++ [entry 1 8 false] ∧
    (∀ e ∈ [entry 0 0 true], e.sealed = true ∧ e.window = 1 ∧ e.seq ∈ [(0 : Word)]) ∧
    (after .frameCompleted updating).pq.entries = [entry 1 8 false] ∧
    (after .frameCompleted updating).lp.cycle = some (ownWrite (.allowedWrite 1)) := by decide +kernel

/-- A granting SHARE window whose GRANT is on the line. -/
def handing : State :=
  sending { (withShare fun x => { x with ownership := .granting, grantee := some 3 }) with ownerDue := [.grant 0] }
    (.grant 0) (.grant 0x100 9 4 3 false)

theorem test_witness_CompletedGrant : (handing.win 0).ownership = .granting ∧ handing.li.line.runs ∧
    ((after .frameCompleted handing).win 0).expected = some 4 ∧
    ((after .frameCompleted handing).win 0).recordedOwner = 3 ∧ (after .frameCompleted handing).ownerDue = [] := by
  decide +kernel

/-- A SHARE window in GRANTING with nothing in the queue. -/
def granted : State := withShare fun x => { x with ownership := .granting, grantee := some 3 }

theorem test_witness_GrantDue : granted.settleGrants.ownerDue = [.grant 0] ∧
    (after .frameCompleted (sending granted .message (.claim 0))).ownerDue = [.grant 0] ∧
    (after .arbitrationLost (granted.modLi fun _ => arbitrating.li)).ownerDue = [.grant 0] ∧
    (after .transmitFault (granted.modLi fun _ => arbitrating.li)).ownerDue = [.grant 0] ∧
    ((after .transmitFault (granted.modLi fun _ => arbitrating.li)).win 0).ownership = .granting ∧
    ({ granted with pq := { entries := [{ entry 0 0 false with window := 0 }], mergeHold := false } } :
      State).settleGrants.ownerDue = [] := by decide +kernel

theorem test_witness_ReturnedGrant :
    (fun s : State => (s.win 0).sync = .gap ∧ (s.win 0).wait = .requestDelay 2016 ∧ (s.win 0).recordedOwner = 3)
      (after .frameCompleted (sending handing (.grant 0) (.grant 0x100 9 4 3 true))) := by decide +kernel

/-- A REFRESH_REQ of window 2 on the line. -/
def requesting : State :=
  sending { base with contexts := #v[.free, .reserved 2] } (.refreshReq 2) (.refreshReq 0x300 2)

theorem test_witness_CompletedRequest : requesting.reservedCtx 2 = some 1 ∧
    ((after .frameCompleted requesting).win 2).sync = .refreshing ∧
    (after .frameCompleted requesting).ctx 1 = .bound (Binding.fresh 2 2) := by decide +kernel

theorem test_witness_WithdrawnRequest :
    (after .frameCompleted (requesting.modLi fun li =>
      { li with tx := .send { onLine (.refreshReq 2) (.refreshReq 0x300 2) false with withdrawn := true } })).contexts =
        #v[.free, .reserved 2] := by decide +kernel

/-- The current sweep of window 1 in a phase. -/
def sweeping (phase : Phase) : State :=
  { base with se := { queue := [(0, .requested)], current := some { Sweep.fresh 1 .start with phase := phase }, idCounter := 6 } }

theorem test_witness_CompletedSweep :
    (after .frameCompleted (sending (sweeping .beginDue) (.sweepBegin 1) (.sweepBegin 0x200 0 6 9 2 .start))).se.idCounter = 7 ∧
    ((after .frameCompleted (sending (sweeping .data) (.sweepData 1) (.sweepData 0x200 6 0 []))).se.current.map
      (·.nextPage)) = some 1 ∧
    (after .frameCompleted (sending (sweeping .endDue) (.sweepEnd 1) (.sweepEnd 0x200 6 2 false))).se.current =
      some (Sweep.fresh 0 .requested) := by decide +kernel

/-! ### Witnesses: timers -/

/-- A frame of `src`, withdrawn or not, in SEND. -/
def sendingLate (s : State) (src : Source) (isWithdrawn : Bool) : State :=
  s.modLi fun li => { li with tx := .send { onLine src (.claim 0x100) false with withdrawn := isWithdrawn } }

theorem test_witness_LateCompletions :
    (after .frameCompleted (sendingLate { base with ownerDue := [.claim 0, .deny 0 3] } (.claim 0) true)).ownerDue =
      [.claim 0, .deny 0 3] ∧
    (after .frameCompleted (sendingLate { base with ownerDue := [.claim 0, .deny 0 3] } (.claim 0) false)).ownerDue =
      [.deny 0 3] ∧
    (after .frameCompleted (sendingLate { base with ownerDue := [.takeover 0 1 2] } (.takeover 0) false)).ownerDue = [] ∧
    (after .frameCompleted (sendingLate { base with ownerDue := [.deny 0 3] } (.grant 0) false)).win 0 = base.win 0 ∧
    (after .frameCompleted (sendingLate granted (.grant 0) true)).ownerDue = [.grant 0] := by decide +kernel

/-- The sweep of window 1 in BEGIN_DUE, its BEGIN in SEND. -/
def beginning (isAbandoned : Bool) : State :=
  sending { base with se := { queue := [(0, .requested)], idCounter := 6,
                              current := some { Sweep.fresh 1 .start with abandon := isAbandoned, again := true } } }
    (.sweepBegin 1) (.claim 0)

theorem test_witness_LostBegin :
    (after .transmitFault (beginning false)).se = (beginning false).se ∧
    (after .transmitFault (beginning true)).se =
      { current := some (Sweep.fresh 0 .requested), queue := [(1, .requested)], idCounter := 6 } ∧
    after .transmitStart (base.modLi fun li => { li with yield := true }) = base.modLi fun li => { li with yield := true } := by
  decide +kernel

/-- `base` in LISTEN. -/
def listening (seen : Bool) : State := base.modLi fun li => { li with line := .listen, onlineSeen := seen }

theorem test_witness_JoinTimer : (listening true).li.line = .listen ∧ (listening false).li.onlineSeen = false ∧
    (after .joinTimerExpiry (listening false)).se.current = some (Sweep.fresh 1 .start) ∧
    ((after .joinTimerExpiry (listening false)).win 2).wait = .requestDelay 2016 := by decide +kernel

theorem test_witness_RecoveryAndMark :
    (after .recoveryTimerExpiry (base.modLi fun li => { li with line := .faulted, recoveryTimer := .running 0 })).li.line =
      .listen ∧
    ((after (.markTimerExpiry 1) (base.modWin 1 fun x => { x with markTimer := .running 9 })).win 1).markTimer =
      .running 0 := by decide +kernel

/-- Window 2 in GAP with a request delay. -/
def delaying : State := base.modWin 2 fun x => { x with wait := .requestDelay 0 }

theorem test_witness_RequestDelay : (delaying.win 2).ownership = .follower ∧ (delaying.win 2).sync = .gap ∧
    delaying.ctx 0 = .free ∧ (after (.requestDelayExpiry 2) delaying).ctx 0 = .reserved 2 ∧
    ((after (.requestDelayExpiry 2) { delaying with contexts := #v[.reserved 0, .reserved 3] }).win 2).contextWait =
      true := by decide +kernel

/-- Window 2 in REFRESHING, its context bound. -/
def refreshing (retry : Nat) : State :=
  { (base.modWin 2 fun x => { x with sync := .refreshing, gapOrigin := some .here, wait := .refreshTimeout 0, retry := retry }) with
    contexts := #v[.bound { Binding.fresh 2 2 with attempt := some { owner := 3, sweepId := 4, snapshot := 20 } }, .free] }

theorem test_witness_RefreshTimeout : (refreshing 0).boundCtx 2 = some 0 ∧ (refreshing 0).reservedCtx 2 = none ∧
    (refreshing 0).rh = { slots := [], work := none } ∧ ((refreshing 0).win 2).contextWait = false ∧
    ((after (.refreshTimeoutExpiry 2) (refreshing 0)).win 2).sync = .gap ∧
    ((after (.refreshTimeoutExpiry 2) (refreshing 2)).win 2).sync = .stale ∧
    (after (.refreshTimeoutExpiry 2)
      { refreshing 0 with rh := { slots := [claimFrame], work := some (.page 2 0 []) } }).rh.slots = [] := by
  decide +kernel

/-- A third attempt of a SHARE window whose initial owner this station is. -/
def lastAttempt : State :=
  (refreshing 2).modWin 2 fun x => { x with desc := { x.desc with roleCode := 3, owner := 5, takeoverPermitted := true } }

theorem test_witness_RefreshTakeover : (lastAttempt.win 2).role = some .share ∧ (lastAttempt.win 2).desc.owner = lastAttempt.station ∧
    ((after (.refreshTimeoutExpiry 2) lastAttempt).win 2).ownership = .owner ∧
    (after (.refreshTimeoutExpiry 2) lastAttempt).ownerDue = [.takeover 2 1 0] := by decide +kernel

theorem test_witness_RetryAtThree :
    (after (.refreshTimeoutExpiry 2) (refreshing 3)).win 2 = { ((refreshing 3).win 2).stale with retry := 3 } ∧
    (after (.refreshTimeoutExpiry 2) (refreshing 3)).en.moreEvents = 1 := by decide +kernel

/-- Window 0 CLAIMING with its claim timer running. -/
def claimingWith (attempts : Nat) (permitted : Bool) : State :=
  withShare fun x => { x with ownership := .claiming, claimAttempts := attempts, claimTimer := .running 1,
                              desc := { x.desc with takeoverPermitted := permitted } }

theorem test_witness_ClaimTimer : ((claimingWith 2 false).win 0).claimTimer = .running 1 ∧
    (after (.claimTimerExpiry 0) (claimingWith 2 false)).ownerDue = [.claim 0] ∧
    ((after (.claimTimerExpiry 0) (claimingWith 3 false)).win 0).ownership = .follower ∧
    (after (.claimTimerExpiry 0) (claimingWith 3 true)).ownerDue = [.takeover 0 1 7] := by decide +kernel

/-! ### Witnesses: local cycles -/

theorem test_witness_ReplicaAccess : base.idlePort ∧ base.maps.ofLocalPage (2 * 0x100 / 256) = none ∧
    (after (.localReplicaRead 0x100 3) base).rm.arb.granted = some .localPort ∧
    (after .localReadGrant (after (.localReplicaRead 0x100 3) base)).lp.dataOut = { low := some 0, high := some 0 } ∧
    (after .localWriteGrant (after (.localWritePrivate 0x100 2 0xBEEF) base)).rm.mem = [(0x201, 0xBE)] ∧
    Memory.wf base.rm.mem = true := by decide +kernel

theorem test_witness_WindowWrites : base.maps.ofLocalPage (2 * 0x800 / 256) = some 0 ∧
    base.maps.ofLocalPage (2 * 0x1000 / 256) = some 1 ∧ (base.win 1).ownership = .owner ∧
    (after (.localWriteWindow 0x800 3 1) base).en.record.cause = some .localWriteRefused ∧
    ((after (.localWriteWindow 0x800 3 1) base).win 0).ownership = .claiming ∧
    (after (.localWriteWindow 0x1000 3 1) base).lp.cycle.map (·.stage) = some (.allowedWrite 1) := by decide +kernel

/-- A full queue. -/
def fullQueue : State := { base with pq := { entries := List.replicate 32 (entry 0 0x80 true), mergeHold := false } }

theorem test_witness_FullQueue :
    fullQueue.pq.fits 1 0 0 2 = false ∧ fullQueue.lp.params.waitLimit ≠ 0 ∧
    (after (.localWriteWindow 0x1000 3 1) fullQueue).lp.cycle.map (·.stage) = some (.heldWrite 1 0) ∧
    (after (.localWriteWindow 0x1000 3 1)
      (fullQueue.modLp fun lp => { lp with params := { lp.params with waitLimit := 0 } })).lp.cycle.map (·.stage) =
        some (.overflowWrite 1) := by decide +kernel

/-- A queue of one post of window 1 from offset 0, unsealed, with the sequence last given, and `more` before it. -/
def tail (n : Nat) (more : List PostEntry) : PostQueue :=
  { entries := more ++ [{ window := 1, seq := 0xFFFF, offset := 0, data := List.replicate n 1, sealed := false }],
    mergeHold := false }

/-- Thirty-one posts of 64 bytes. -/
def crowd : List PostEntry := List.replicate 31 { entry 0 0 true with data := List.replicate 64 0 }

theorem test_witness_MergeAndRoom :
    (tail 62 []).wouldMerge 1 0 62 2 = true ∧ (tail 63 []).wouldMerge 1 0 63 2 = false ∧
    (tail 60 []).wouldMerge 1 0 61 2 = false ∧ (tail 60 []).wouldMerge 1 1 60 2 = false ∧
    (tail 62 crowd).fits 1 0 62 2 = true ∧ postBytes (tail 62 crowd).entries = 2046 ∧
    (tail 63 crowd.tail).fits 1 0 63 2 = true ∧ (tail 63 crowd).fits 1 0 63 2 = false := by decide +kernel

/-- A write of window 1 whose grant is in progress. -/
def writing (stage : Stage) (q : PostQueue) (next : Word) : State :=
  granting (inCycle { (base.modWin 1 fun x => { x with nextSeq := next }) with pq := q } (ownWrite stage)) .localPort

theorem test_witness_Posted :
    (after .localWriteGrant (writing (.allowedWrite 1) base.pq 0)).pq.entries =
      [{ window := 1, seq := 0, offset := 0, data := [0xEF, 0xBE], sealed := false }] ∧
    (after .localWriteGrant (writing (.allowedWrite 1) { entries := [entry 0 1 false], mergeHold := true } 1)).pq.entries =
      [{ window := 1, seq := 0, offset := 0, data := [0xEF, 0xBE, 2], sealed := false }] := by decide +kernel

/-- A post of window 1 before one of window 0, which this station owns, and a write of window 1 allowed as an append. -/
def appendAllowed : State :=
  inCycle
    { ((base.modWin 1 fun x => { x with nextSeq := 1 }).modWin 0 fun x => { x with ownership := .owner }) with
      pq := { entries := [entry 0 1 false, { entry 5 0 false with window := 0 }], mergeHold := false } }
    (ownWrite (.allowedWrite 1))

/-- The other window yields before the grant, and the write allowed as an append merges (log 13). -/
theorem test_append_becomes_merge :
    appendAllowed.pq.wouldMerge 1 1 0 2 = false ∧
    (after .localWriteGrant (granting (appendAllowed.handleFor 0 3 (.mark 0x100 1 6)) .localPort)).pq.entries =
      [{ window := 1, seq := 0, offset := 0, data := [0xEF, 0xBE, 2], sealed := false }] := by decide +kernel

theorem test_witness_Overflow : (after .postWaitExpiry (inCycle base (ownWrite (.heldWrite 1 5)))).lp.cycle =
      some (ownWrite (.overflowWrite 1)) ∧
    ((after .overflowWriteGrant (writing (.overflowWrite 1) fullQueue.pq 9)).win 1).nextSeq = 10 ∧
    (after .overflowWriteGrant (writing (.overflowWrite 1) fullQueue.pq 9)).en.record.sequence = some 9 := by
  decide +kernel

/-- A cycle that waits behind the internal writer. -/
def waitingCycle (stage : Stage) : State :=
  (inCycle (granting base .writer) (ownWrite stage)).modLp fun lp => { lp with wait := true }

theorem test_witness_CycleEnds : (after .localCycleEnd (inCycle base (ownWrite .complete))).lp.cycle = none ∧
    (waitingCycle (.allowedWrite 1)).rm.arb.granted ≠ some .localPort ∧
    (after .localCycleAbandon (waitingCycle (.allowedWrite 1))).lp.wait = false ∧
    (after .localCycleAbandon (waitingCycle (.heldWrite 1 3))).lp.cycle = none := by decide +kernel

/-- `posting` with a taken write of window 1 whose grant is in progress. -/
def grantedCycle (stage : Stage) : State := writing stage posting.pq 2

theorem test_witness_CycleEndsInItsGrant :
    (after .localCycleEnd (grantedCycle (.allowedWrite 1))).pq.entries.length = 3 ∧
    (after .localCycleAbandon ((grantedCycle (.allowedWrite 1)).setWait true)).rm.mem = [(0x2000, 0xEF), (0x2001, 0xBE)] ∧
    ((after .localCycleEnd (grantedCycle (.overflowWrite 1))).win 1).nextSeq = 3 ∧
    (after .localCycleEnd (grantedCycle .read)).lp.dataOut = { low := none, high := none } := by decide +kernel

/-! ### Witnesses: the internal writer -/

/-- A record of window 0 whose grant is in progress. -/
def applying (rest : List PostRecord) : State :=
  granting { base with rh := { slots := [claimFrame], work := some (.record 0 3 record7 rest false false) } } .writer

theorem test_witness_RecordGrant : (applying []).rh.slots.length ≤ 1 ∧ (∀ v : WinId, ((applying []).win v).ownership ≠ .granting) ∧
    (after .recordWriteGrant (applying [])).rm.mem = [(0x1010, 0xAB), (0x1011, 0xCD)] ∧
    ((after .recordWriteGrant (applying [])).win 0).expected = some 8 ∧
    ((after .recordWriteGrant (applying [])).win 0).updateCount = 1 ∧
    (after .recordWriteGrant (applying [{ record7 with seq := 8 }])).rm.arb.granted = some .writer := by decide +kernel

/-- The grant that a record's write hands on, after a TRANSMIT_START of a SWEEP_DATA and `n` bt of the model's clock. -/
def handedOn (n : Nat) : Option Requester :=
  let s : State := { applying [{ record7 with seq := 8 }] with se := (sweeping .data).se }
  (after .recordWriteGrant (after .transmitStart (s.modLi fun li => { li with btCount := n }))).rm.arb.granted

/-- R35: the writer's request of the same bt goes before the page read's; before the first bt the commands' order tells
(log 6). -/
theorem test_witness_Arbiter : handedOn 9 = some .writer ∧ handedOn 0 = some .sweepReader ∧
    (after .transmitStart ((sweeping .data).modLi fun li => { li with btCount := 9 })).presentBt = 10 ∧
    base.presentBt = base.li.btCount ∧
    (fun b : Arbiter => b.waiting.map (·.who) = [.localPort, .writer] ∧ b.release.granted = some .localPort)
      { turn := .localSide, granted := some .sweepReader,
        waiting := [{ who := .localPort, placed := 1 }, { who := .writer, placed := 1 }] } := by decide +kernel

/-- A page or a deferred record of window 2 whose grant is in progress. -/
def filling (wk : Work) : State :=
  granting { refreshing 0 with rh := { slots := [claimFrame], work := some wk } } .writer

theorem test_witness_RefreshGrants :
    (after .pageWriteGrant (filling (.page 2 1 [7]))).rm.mem = [(0x3100, 7)] ∧
    (((after .pageWriteGrant (filling (.page 2 1 [7]))).bindingOf 2).map (·.received)) = some [1] ∧
    ((after .deferredRecordGrant (filling (.deferred 2 record7 []))).win 2).sync = .synced ∧
    ((after .deferredRecordGrant (filling (.deferred 2 record7 []))).win 2).expected = some 21 ∧
    (after .deferredRecordGrant (filling (.deferred 2 record7 [record7]))).rh.work = some (.deferred 2 record7 []) := by
  decide +kernel

theorem test_witness_RefreshEndsInGap :
    (fun s : State => (s.win 2).sync = .gap ∧ (s.win 2).wait = .requestDelay 2016 ∧ (s.win 2).expected = some 21)
      (after .deferredRecordGrant { filling (.deferred 2 record7 []) with
        contexts := #v[.bound { Binding.fresh 2 2 with attempt := some { owner := 3, sweepId := 4, snapshot := 20 },
                                                       overflow := true }, .free] }) := by decide +kernel

/-! ### Witnesses: frames for a window -/

theorem test_witness_Sequence : (base.win 0).sync = .synced ∧ (base.win 0).expected = some 7 ∧
    ((base.takeRecords 0 3 false false [{ record7 with seq := 8 }]).win 0).sync = .gap ∧
    ((base.takeRecords 0 3 false false [{ record7 with seq := 0x8006 }]).win 0).sync = .gap ∧
    ((base.takeRecords 0 3 false false [{ record7 with seq := 0x8007 }]).win 0).behind = 1 ∧
    (((withShare fun x => { x with behind := 3 }).takeRecords 0 3 false false [{ record7 with seq := 6 }]).win 0).sync =
      .unsynced ∧
    ((base.takeRecords 0 3 false true [{ record7 with seq := 6 }]).win 0).sync = .gap ∧
    ((base.takeRecords 0 3 false false [{ record7 with offset := 0x1FF }]).win 0).sync = .stale ∧
    (base.takeRecords 0 3 false false [{ record7 with offset := 0x1FE }]).rh.work.isSome = true := by decide +kernel

theorem test_witness_SequenceInFrame :
    (base.takeRecords 0 3 false false [{ record7 with seq := 6 }, record7]).rh.work =
      some (.record 0 3 record7 [] false false) ∧
    (fun s : State => (s.win 0).sync = .gap ∧ (s.win 0).updateCount = 1 ∧ s.rh.work = none)
      (base.takeRecords 0 3 true false [{ record7 with seq := 8 }, record7]) ∧
    ((base.takeRecords 0 3 true false []).win 0).updated = true ∧
    (refreshing 0).takeMark 2 3 5 true = refreshing 0 := by decide +kernel

theorem test_witness_Roles : (base.win 2).role = some .follow ∧ (base.win 1).role = some .own ∧
    (base.win 2).desc.owner = 3 ∧ base.handleFor 2 4 (.mark 0x300 0 6) = base.count .foreign ∧
    base.handleFor 2 3 (.takeover 0x300 0 6) = base.count .foreign ∧
    (base.handleFor 1 4 (.claim 0x200)).en.record.cause = some .ownershipConflict := by decide +kernel

theorem test_witness_Marks : base.follows 0 ∧ base.takeMark 0 3 6 false = base ∧
    ((base.takeMark 0 3 7 false).win 0).sync = .gap ∧ ((base.takeMark 0 3 0x8005 false).win 0).sync = .gap ∧
    ((base.takeMark 0 3 0x8006 false).win 0).behind = 1 ∧ ((base.takeMark 0 3 0x8006 true).win 0).sync = .gap ∧
    (((withShare fun x => { x with behind := 3 }).takeMark 0 3 5 false).win 0).sync = .unsynced ∧
    (base.win 2).sync = .gap ∧ base.takeMark 2 3 5 false = base ∧
    base.takeRecords 1 3 false false [record7] = base := by decide +kernel

/-- Window 2 in REFRESHING with snapshot 20 and `n` records of `size` bytes deferred. -/
def deferring (n size : Nat) : State :=
  { refreshing 0 with
    contexts := #v[.bound { Binding.fresh 2 2 with
      attempt := some { owner := 3, sweepId := 4, snapshot := 20 },
      deferred := List.replicate n { record7 with data := List.replicate size 0 } }, .free] }

/-- The deferred records, the overflow flag and the deferred-gap flag of window 2. -/
def deferral (s : State) : Option (Nat × Bool × Bool) :=
  (s.bindingOf 2).map fun b => (b.deferred.length, b.overflow, b.deferredGap)

theorem test_witness_Deferral : (deferring 0 2).follows 2 ∧ (deferring 0 2).boundCtx 2 = some 0 ∧
    deferral ((deferring 0 2).takeRecords 2 3 false false [{ record7 with seq := 21 }]) = some (1, false, false) ∧
    deferral ((deferring 0 2).takeRecords 2 3 false false [{ record7 with seq := 22 }]) = some (0, false, true) ∧
    deferral ((deferring 0 2).takeRecords 2 3 false false [{ record7 with seq := 20 }]) = some (0, false, false) ∧
    deferral ((deferring 0 2).takeRecords 2 4 false false [{ record7 with seq := 21 }]) = some (0, false, false) ∧
    deferral ((deferring 23 2).takeRecords 2 3 false false [{ record7 with seq := 44 }]) = some (24, false, false) ∧
    deferral ((deferring 24 2).takeRecords 2 3 false false [{ record7 with seq := 45 }]) = some (24, true, false) ∧
    deferral ((deferring 16 64).takeRecords 2 3 false false [{ record7 with seq := 37 }]) = some (16, true, false) ∧
    ((deferring 0 2).takeRecords 2 3 false false [{ record7 with seq := 21, offset := 0x1FF }]).win 2 =
      ((deferring 0 2).win 2).stale := by decide +kernel

/-- `base` with no context free. -/
def noContext : State := { base with contexts := #v[.reserved 5, .reserved 6] }

theorem test_witness_RefreshReq :
    (base.handleFor 1 3 (.refreshReq 0x200 2)).se.current = some (Sweep.fresh 1 .requested) ∧
    (base.handleFor 1 3 (.refreshReq 0x200 1)).en.record.cause = some .sizeMismatch ∧
    ((sweeping .data).handleFor 1 3 (.refreshReq 0x200 2)).se.current.map (·.again) = some false ∧
    base.follows 2 ∧ base.bindsContext 2 0 ∧
    ((base.handleFor 2 4 (.refreshReq 0x300 2)).win 2).gapOrigin = some .already ∧
    base.handleFor 2 4 (.refreshReq 0x300 1) = base ∧ noContext.handleFor 2 4 (.refreshReq 0x300 2) = noContext ∧
    requesting.handleFor 2 4 (.refreshReq 0x300 2) = requesting ∧
    granted.handleFor 0 4 (.refreshReq 0x100 2) = granted := by decide +kernel

theorem test_witness_SweepBegin :
    (fun s : State => (s.win 2).sync = .refreshing ∧ s.ctx 0 =
      .bound { Binding.fresh 2 2 with attempt := some { owner := 3, sweepId := 4, snapshot := 20 } })
        (base.handleFor 2 3 (.sweepBegin 0x300 0 4 20 2 .requested)) ∧
    (base.handleFor 2 3 (.sweepBegin 0x300 0 4 20 1 .requested)).win 2 = (base.win 2).stale ∧
    base.handleFor 2 4 (.sweepBegin 0x300 0 4 20 2 .requested) = base.count .foreign ∧
    base.handleFor 0 3 (.sweepBegin 0x100 0 4 20 2 .requested) = base ∧
    ((base.handleFor 0 3 (.sweepBegin 0x100 0 4 20 2 .start)).win 0).sync = .refreshing ∧
    ((noContext.handleFor 0 3 (.sweepBegin 0x100 0 4 20 2 .start)).win 0).sync = .unsynced ∧
    noContext.handleFor 2 3 (.sweepBegin 0x300 0 4 20 2 .start) = noContext ∧
    (requesting.handleFor 2 3 (.sweepBegin 0x300 0 4 20 2 .start)).li.tx.onLine.map (·.withdrawn) = some true ∧
    ((refreshing 0).handleFor 2 3 (.sweepBegin 0x300 0 9 20 2 .start)).bindingOf 2 =
      some { Binding.fresh 2 2 with attempt := some { owner := 3, sweepId := 9, snapshot := 20 } } ∧
    ((refreshing 0).handleFor 2 3 (.sweepBegin 0x300 0 9 20 1 .start)).ctx 0 = .free := by decide +kernel

/-- Window 2 in REFRESHING with both its pages received and the given records deferred. -/
def whole (rs : List PostRecord) : State :=
  { refreshing 0 with
    contexts := #v[.bound { Binding.fresh 2 2 with attempt := some { owner := 3, sweepId := 4, snapshot := 20 },
                                                   received := [1, 0], deferred := rs }, .free] }

theorem test_witness_SweepDataAndEnd : (refreshing 0).follows 2 ∧ ((refreshing 0).win 2).recordedOwner = 3 ∧
    ((refreshing 0).handleFor 2 3 (.sweepData 0x300 4 1 [])).rh.work = some (.page 2 1 []) ∧
    (refreshing 0).handleFor 2 3 (.sweepData 0x300 4 2 []) = refreshing 0 ∧
    (refreshing 0).handleFor 2 3 (.sweepData 0x300 5 1 []) = refreshing 0 ∧
    base.handleFor 2 3 (.sweepEnd 0x300 4 2 false) = base ∧
    (refreshing 0).handleFor 2 4 (.sweepData 0x300 4 1 []) = (refreshing 0).count .foreign ∧
    (((refreshing 0).handleFor 2 3 (.sweepEnd 0x300 4 2 false)).win 2).retry = 1 ∧
    (((whole []).handleFor 2 3 (.sweepEnd 0x300 4 2 true)).win 2).retry = 1 ∧
    (((whole []).handleFor 2 3 (.sweepEnd 0x300 4 2 false)).win 2).sync = .synced ∧
    ((whole [record7]).handleFor 2 3 (.sweepEnd 0x300 4 2 false)).rh.work = some (.deferred 2 record7 []) := by
  decide +kernel

theorem test_witness_ClaimFrame : (base.win 0).role = some .share ∧ base.handleFor 0 3 (.claim 0x100) = base ∧
    (((withShare fun x => { x with ownership := .owner }).handleFor 0 3 (.claim 0x100)).win 0).ownership = .granting ∧
    ((withShare fun x => { x with ownership := .owner, keep := true }).handleFor 0 3 (.claim 0x100)).ownerDue =
      [.deny 0 3] := by decide +kernel

/-- Window 0 owned, and a taken write of it in progress. -/
def takenFor0 (stage : Stage) : State := inCycle (withShare fun x => { x with ownership := .owner }) (ownWrite stage)

theorem test_witness_ClaimAtATakenWrite :
    (fun s : State => s.lp.cycle = some (ownWrite .complete) ∧ s.en.record.cause = some .localWriteRefused ∧
      s.en.record.station = some 3 ∧ s.ownerDue = [.claim 2])
      ({ takenFor0 (.allowedWrite 0) with ownerDue := [.deny 0 4, .claim 2] }.handleFor 0 3 (.claim 0x100)) ∧
    (fun s : State => s.rm.mem = [(0x2000, 0xEF), (0x2001, 0xBE)] ∧ (s.win 0).ownership = .granting ∧
      s.en.record.cause = none)
      ((granting (takenFor0 (.allowedWrite 0)) .localPort).handleFor 0 3 (.claim 0x100)) := by decide +kernel

theorem test_witness_DenyFrame : base.handleFor 0 3 (.deny 0x100 5) = base ∧
    (((claimingWith 1 false).handleFor 0 3 (.deny 0x100 5)).win 0).ownership = .follower ∧
    (claimingWith 1 false).handleFor 0 4 (.deny 0x100 5) = claimingWith 1 false := by decide +kernel

theorem test_witness_GrantFrame : base.boundCtx 0 = none ∧ base.reservedCtx 0 = none ∧
    ((base.handleFor 0 3 (.grant 0x100 1 7 5 false)).win 0).ownership = .owner ∧
    ((base.handleFor 0 3 (.grant 0x100 1 8 5 false)).win 0).returned = true ∧
    ((base.handleFor 0 3 (.grant 0x100 1 8 5 true)).win 0).ownership = .owner ∧
    (base.handleFor 0 3 (.grant 0x100 0xFF 7 5 false)).en.counters[Counter.foreign.index] = 1 := by decide +kernel

theorem test_witness_GrantToAClaim :
    (fun s : State => (s.win 0).ownership = .owner ∧ (s.win 0).claimAttempts = 0 ∧ (s.win 0).claimTimer = .stopped ∧
      s.ownerDue = [.deny 2 3])
      ({ claimingWith 2 false with ownerDue := [.claim 0, .deny 2 3] }.handleFor 0 3 (.grant 0x100 1 7 5 false)) ∧
    (fun s : State => (s.win 0).ownership = .owner ∧ (s.win 0).sync = .gap ∧ s.contexts = #v[.free, .free] ∧
      (s.win 4).wait = .requestDelay 2016 ∧ s.se.current = some (Sweep.fresh 0 .forced))
      (({ base with contexts := #v[.reserved 0, .bound (Binding.fresh 0 2)] }.modWin 4 fun x =>
        { x with contextWait := true }).handleFor 0 3 (.grant 0x100 1 8 5 true)) := by decide +kernel

theorem test_witness_Generations :
    ((base.handleFor 0 4 (.mark 0x100 127 6)).win 0).recordedOwner = 4 ∧
    (base.handleFor 0 4 (.mark 0x100 128 6)).en.counters[Counter.foreign.index] = 1 ∧
    (((withShare fun x => { x with ownership := .owner }).handleFor 0 3 (.mark 0x100 0 6)).win 0).ownership = .follower ∧
    (((withShare fun x => { x with ownership := .owner }).handleFor 0 6 (.mark 0x100 0 6)).win 0).markNow = true := by
  decide +kernel

/-- Window 0 in a state of ownership. -/
def inState (o : Ownership) : State := withShare fun x => { x with ownership := o, claimTimer := .running 3 }

theorem test_witness_GenerationOfUpdate :
    (((inState .claiming).handleFor 0 3 (.update 0x100 1 [record7])).win 0).claimTimer = .running 16384 ∧
    ((inState .claiming).handleFor 0 3 (.update 0x100 1 [record7])).rh.work =
      some (.record 0 3 record7 [] false true) ∧
    (((inState .granting).handleFor 0 4 (.update 0x100 0 [record7])).win 0).ownership = .follower ∧
    (((inState .owner).handleFor 0 5 (.update 0x100 0 [record7])).win 0).markNow = true := by decide +kernel

/-- Window 0 owned, with a post, its sweep under way and frames due. -/
def yielding : State :=
  { inState .owner with
    pq := { entries := [{ entry 5 0 false with window := 0 }, entry 0 0 false], mergeHold := false }
    se := { current := some { Sweep.fresh 0 .start with phase := .data, sweepId := some 3 }, queue := [(1, .start)],
            idCounter := 4 }
    ownerDue := [.deny 0 3, .takeover 1 2 3] }

theorem test_witness_Yields :
    yielding.reservedCtx 0 = none ∧ yielding.lp.cycle = none ∧
    (fun s : State => s.pq.entries = [entry 0 0 false] ∧ s.ownerDue = [.takeover 1 2 3] ∧
      s.se.current.map (fun c => (c.phase, c.abandon)) = some (.endDue, true) ∧
      s.en.record.cause = some .postsDiscarded ∧ s.en.moreEvents = 1 ∧ (s.win 0).wait = yielding.newDelay)
        (yielding.handleFor 0 3 (.takeover 0x100 1 7)) ∧
    (fun s : State => s.lp.cycle = some (ownWrite .complete) ∧ s.lp.wait = false ∧ s.en.moreEvents = 2)
      ((inCycle (granting yielding .writer) (ownWrite (.allowedWrite 0))).handleFor 0 3 (.mark 0x100 1 7)) := by decide +kernel

theorem test_witness_Abandons :
    (fun (s : State) (e : SweepEngine) => (s.handleFor 0 3 (.takeover 0x100 1 7)).se = e)
      { yielding with se := { current := some (Sweep.fresh 0 .start), queue := [(1, .start)], idCounter := 4 } }
      { current := some (Sweep.fresh 1 .start), queue := [], idCounter := 4 } ∧
    (fun (s : State) (e : SweepEngine) => (s.handleFor 0 3 (.takeover 0x100 1 7)).se = e)
      { yielding with se := { current := some (Sweep.fresh 1 .start), queue := [(0, .start)], idCounter := 4 } }
      { current := some (Sweep.fresh 1 .start), queue := [], idCounter := 4 } ∧
    ((sending { yielding with se := { current := some (Sweep.fresh 0 .start), queue := [], idCounter := 4 } }
      (.sweepBegin 0) (.claim 0)).handleFor 0 3 (.takeover 0x100 1 7)).se.current =
        some { Sweep.fresh 0 .start with abandon := true } := by decide +kernel

theorem test_witness_GrantsElsewhere :
    (base.handleFor 0 3 (.grant 0x100 1 7 4 false)).win 0 =
      { base.win 0 with recordedOwner := 4, generation := 1 } ∧
    ((base.handleFor 0 4 (.takeover 0x100 1 8)).win 0).sync = .gap ∧
    base.handleFor 0 4 (.takeover 0x100 0 7) = base.count .foreign ∧
    ((inState .claiming).handleFor 0 4 (.takeover 0x100 1 7)).en.record.cause = some .claimLost ∧
    (((inState .owner).handleFor 0 4 (.takeover 0x100 0 7)).win 0).ownership = .follower ∧
    (((inState .granting).handleFor 0 6 (.takeover 0x100 0 7)).win 0).markNow = true ∧
    (((inState .owner).handleFor 0 3 (.grant 0x100 127 7 5 false)).win 0).generation = 127 ∧
    (inState .owner).handleFor 0 3 (.grant 0x100 128 7 5 false) = (inState .owner).count .conflict := by decide +kernel

/-! ### Witnesses: commands and the control area -/

theorem test_witness_ProbeOnTheMaps :
    (fun f : Word → Option WinId => f 0xFF = none ∧ f 0x100 = some 0 ∧ f 0x101 = some 0 ∧ f 0x102 = none)
      (fun page =>
        let p := (after .probe (withArgs base.buildMaps 0 page)).lp.status.probe
        if p.found then some p.window else none) := by decide +kernel

theorem test_witness_HaltResume : (after .lineHalt base).li.line = .halted ∧
    (after .lineResume (base.modLi fun li => { li with line := .halted })).li.line = .online ∧
    (after .lineResume (base.modLi fun li => { li with line := .faulted, faults := 16 })).li.faults = 0 ∧
    (after .lineResume base).lp.status.reason = .wrongState := by decide +kernel

theorem test_witness_WindowArguments : (withArgs base 0 0).names 0 0 ∧ base.namesNone 16 ∧ base.namesNone 3 ∧
    (after .refresh (withArgs base 16 0)).lp.status.reason = .badWindow ∧
    (after .refresh (withArgs base 1 0)).lp.status.reason = .wrongRole ∧
    ((after .refresh base).win 0).sync = .gap ∧ (after .refresh base).lp.status.result = .done ∧
    (after .refresh (withArgs (refreshing 0) 2 0)).lp.status.reason = .wrongState := by decide +kernel

theorem test_witness_Claim : (after .claim base).ownerDue = [.claim 0] ∧
    (after .claim (withArgs base 1 0)).lp.status.reason = .wrongRole ∧
    (after .claim (claimingWith 1 false)).lp.status.reason = .wrongState ∧
    (after .claim (withShare fun x => { x with sync := .gap })).lp.status.reason = .notSynced := by decide +kernel

theorem test_witness_Setting : ((after .keep (withArgs base 0 1)).win 0).keep = true ∧
    (after .keep (withArgs base 0 2)).lp.status.reason = .badArgument ∧
    ((after .ackUpdates (withArgs (withShare fun x => { x with updated := true }) 1 0)).win 0).updated = false ∧
    (after .notifyAck (withArgs (base.modEn fun e => { e with pending := 3 }) 1 0)).en.pending = 2 := by decide +kernel

theorem test_witness_ProbeAndMessages :
    (after .probe (withArgs base 0 0x101)).lp.status.probe =
      { found := true, window := 0, pageIndex := 1, localPage := 0x11 } ∧
    (after .probe (withArgs base 16 0)).lp.status.reason = .badArgument ∧
    (after .messageSend base).lp.status.reason = .badArgument ∧
    (after .messagePop fullFifo).mu.inFifo.length = 7 ∧ (after .messagePop base).lp.status.reason = .empty ∧
    (after (.unknownCommand 14) base).lp.status.reason = .badArgument := by decide +kernel

/-- A staged message to station 3. -/
def staged (n : Nat) : State :=
  base.modMu fun u =>
    { u with staging := { u.staging with destination := 3, urgency := 1, length := 2 },
             outQueue := List.replicate n { destination := 3, urgency := 1, kind := 0, subkind := 0, payload := [] } }

theorem test_witness_Send : (after .messageSend (staged 3)).mu.outQueue.length = 4 ∧
    (after .messageSend (staged 4)).lp.status.reason = .full ∧
    (after .messageSend ((staged 0).modLi fun li => { li with line := .offline })).lp.status.reason = .wrongState := by
  decide +kernel

theorem test_witness_SoftRestart : base.idlePort ∧ base.li.line.runs ∧
    (after .softRestart posting).pq.entries = [] ∧ ((after .softRestart posting).win 1).markNow = true ∧
    ((after .softRestart (claimingWith 1 false)).win 0).ownership = .follower ∧
    (after .softRestart (withShare fun x => { x with ownership := .granting, returned := true })).se.current =
      some (Sweep.fresh 0 .forced) := by decide +kernel

/-- `refreshing 0` with window 3 in context wait, window 0's reservation, a TAKEOVER and a CLAIM due, and a post. -/
def restarting : State :=
  { (refreshing 0).modWin 3 fun x => { x with contextWait := true } with
    contexts := #v[(refreshing 0).ctx 0, .reserved 0], ownerDue := [.takeover 0 4 9, .claim 0], pq := posting.pq }

theorem test_witness_RestartBlocks : restarting.idlePort ∧
    (fun s : State => s.contexts = #v[.free, .reserved 0] ∧ (s.win 2).sync = .gap ∧ (s.win 2).gapOrigin = some .here ∧
      (s.win 2).wait = .requestDelay 2016 ∧ (s.win 3).wait = .requestDelay 2016 ∧ (s.win 3).contextWait = false ∧
      s.ownerDue = [.takeover 0 4 9] ∧ s.en.record.cause = some .postsDiscarded ∧
      s.en.counters[Counter.postsDiscarded.index] = 2) (after .softRestart restarting) ∧
    (fun s : State => (s.win 0).ownership = .owner ∧ (s.win 0).returned = false ∧ (s.win 0).retry = 2 ∧
      s.en.record.cause = some .forcedOwnership)
        (after .softRestart (withShare fun x => { x with ownership := .granting, returned := true, retry := 2 })) ∧
    (after .softRestart (base.modLi fun li => { li with line := .offline })).lp.status.reason = .wrongState := by
  decide +kernel

theorem test_witness_Control : (after (.maskWordWrite 3 5) base).en.mask = 5 ∧ (after (.maskWordWrite 2 5) base).en.mask = 15 ∧
    (after (.controlWrite 0x8054 1 0xABCD) base).lp.args[3] = 0xCD ∧
    (after (.controlWrite 0x8077 2 0xABCD) base).mu.staging.payload[31] = 0xAB ∧
    (after (.controlWrite 0x8055 3 1) base) =
      { base with lp := base.lp.served true 0x8055 3 1 } := by decide +kernel

theorem test_witness_StagingAndNotify :
    (after (.controlWrite 0x8060 1 0xAB07) base).mu.staging.destination = 7 ∧
    (after (.controlWrite 0x8061 1 0xAB07) base).mu.staging.urgency = 7 ∧
    (after (.controlWrite 0x8062 1 0xAB07) base).mu.staging.kind = 7 ∧
    (after (.controlWrite 0x8063 1 0xAB07) base).mu.staging.subkind = 7 ∧
    (after (.controlWrite 0x8064 3 0xAB07) base).mu.staging.length = 7 ∧
    (after (.controlWrite 0x8064 2 0xAB07) base).mu.staging.length = 0 ∧
    (base.modEn fun e => { e with pending := 7, mask := 5 }).en.notify = 2 := by decide +kernel

theorem test_witness_CapturingReads : base.idlePort ∧
    (after (.lineTimeLowRead 1) base).lp.dataOut = { low := some 100, high := none } ∧
    (after (.lineTimeLowRead 1) base).li.timeCapture = some 0 ∧
    (after (.statusRecordFirstRead 0 3) base).lp.capture.isSome = true ∧
    (after (.statusRecordWordRead 0 1 3) base).lp.dataOut = { low := some 3, high := some 34 } := by decide +kernel

/-- What a word read of an address above the replica drives. -/
def readAt (s : State) (a : BitVec 16) : DataOut := (after (.localReplicaRead a 3) s).lp.dataOut

theorem test_witness_ControlReads :
    readAt base 0x8000 = { low := some 1, high := some 0 } ∧ readAt base 0x8001 = { low := some 5, high := some 0 } ∧
    readAt base 0x8041 = { low := some 15, high := some 0 } ∧ readAt base 0x8042 = { low := some 0, high := some 0 } ∧
    readAt (withShare fun x => { x with updated := true }) 0x8042 = { low := some 1, high := some 0 } ∧
    readAt base 0x8200 = { low := some 0, high := some 0 } ∧ readAt base 0xFFFF = { low := some 0, high := some 0 } ∧
    readAt fullFifo 0x8080 = { low := some 8, high := some 0 } ∧
    (0x082, (15 : Word)) ∈ base.controlMap ∧ (∀ v ∈ base.controlMap, v.1 ≠ 0x05A) ∧
    after (.localReplicaRead 0x8011 3) base = after (.lineTimeLowRead 3) base ∧
    after (.localReplicaRead 0x8108 3) base = after (.statusRecordFirstRead 1 3) base ∧
    (after (.localReplicaRead 0x8050 3) base).rm = base.rm := by decide +kernel

/-- A first word read through a held capture shows the record as it stands (R180, R52). -/
theorem test_first_word_as_it_stands :
    (base.modLp fun lp => { lp with capture := some { window := 0, words := Vector.replicate 8 0xFFFF } }).controlWord
      0x200 = (base.statusWords 0)[(0 : Fin 8)] := by decide +kernel

theorem test_witness_ReadsOfNeitherByte :
    (after (.lineTimeLowRead 0) base).li = base.li ∧
    (after (.statusRecordFirstRead 0 0) base).lp.capture = none ∧
    (after (.statusRecordWordRead 0 1 0) base).lp.dataOut = { low := some 0, high := some 0 } := by decide +kernel

theorem test_witness_StatusRecord : ((refreshing 0).win 2).retry ≤ 3 ∧ ((refreshing 0).win 2).updateCount ≤ 255 ∧
    (refreshing 0).recordBytes 2 2 = [0x0B, 2, 3, 0x0C, 3, 0, 0, 0, 0, 0, 0, 1, 0, 0, 0, 2] ∧
    ((refreshing 0).statusWords 2)[(7 : Fin 8)] = 0x0200 := by decide +kernel

theorem test_witness_Legal : claimFrame.legal := by
  refine ⟨by decide, by decide, ?_, ?_⟩ <;> simp [claimFrame, Body.urgencyLegal, Body.legal]

theorem test_witness_Invariants : Memory.wf base.rm.mem = true ∧ CountsBounded base ∧ RolesHold base ∧
    UnloadedUntilLoad base := by decide +kernel

theorem test_witness_ListInvariants : ListsBounded base ∧ TakenWritesHaveRoom base ∧
    ListsBounded (inCycle posting (ownWrite (.allowedWrite 1))) ∧
    TakenWritesHaveRoom (inCycle posting (ownWrite (.allowedWrite 1))) := by
  refine ⟨?_, ?_, ?_, ?_⟩ <;> decide +kernel

theorem test_witness_Events : base.li.line.runs ∧ State.reset.li.line = .offline ∧
    State.reset.en.captureHold = false := by decide +kernel

end Sys2Proof.Tests
end

section
/-!
The station line's commands (R20, R22): what a command answers on an idle port, and LINE_HALT and LINE_RESUME by the line
state they find.
-/

namespace Sys2Proof.Machine

/-! ### A command on an idle port -/

/-- The model's test of R178 and the statements' hypothesis say the same. -/
theorem State.portFree_iff_idlePort (s : State) : s.portFree = true ↔ s.idlePort := by
  simp [State.portFree]

theorem State.portFree_of_idlePort {s : State} (h : s.idlePort) : s.portFree = true :=
  s.portFree_iff_idlePort.mpr h

theorem State.done_eq_answersDone (s : State) (code : Word) : s.done code = s.answersDone code := rfl

theorem State.refuse_eq_answersRefused (s : State) (code : Word) (reason : Reason) :
    s.refuse code reason = s.answersRefused code reason := rfl

/-! ### The line states the two commands enter -/

/-- R19: every entry to LISTEN starts the join timer with the configured number of spans. -/
theorem State.enterListen_eq (s : State) : s.enterListen =
    { s with li := { s.li with line := .listen, joinTimer := .running (s.lp.params.joinInterval * 1024) } } := rfl

/-- The part of LINE_RESUME in FAULTED that R22 gives to the Line Interface. -/
theorem State.leaveFaulted_eq (s : State) :
    (s.modLi fun li => { li with faults := 0, recoveryTimer := .stopped }).enterListen =
      { s with li := { s.li with line := .listen, faults := 0, recoveryTimer := .stopped,
                                 joinTimer := .running (s.lp.params.joinInterval * 1024) } } := by
  rw [State.enterListen_eq, State.modLi_lp, State.modLi_li]
  rfl

/-! ### LINE_HALT (R20) -/

theorem exec_lineHalt (s : State) : exec .lineHalt s = execLineHalt s := rfl

theorem exec_lineHalt_of_idlePort {s : State} (hport : s.idlePort) :
    exec .lineHalt s =
      .next (if s.li.line = .online then (s.modLi fun li => { li with line := .halted }).done 0x000B
             else s.refuse 0x000B .wrongState) := by
  have hfree := State.portFree_of_idlePort hport
  rw [exec_lineHalt, execLineHalt, if_pos hfree]

theorem exec_lineHalt_of_online {s : State} (hport : s.idlePort) (hline : s.li.line = .online) :
    exec .lineHalt s = .next (({ s with li := { s.li with line := .halted } } : State).answersDone 0x000B) := by
  rw [exec_lineHalt_of_idlePort hport, if_pos hline, State.done_eq_answersDone]
  rfl

theorem exec_lineHalt_of_not_online {s : State} (hport : s.idlePort) (hline : s.li.line ≠ .online) :
    exec .lineHalt s = .next (s.answersRefused 0x000B .wrongState) := by
  rw [exec_lineHalt_of_idlePort hport, if_neg hline, State.refuse_eq_answersRefused]

/-! ### LINE_RESUME (R22) -/

theorem exec_lineResume (s : State) : exec .lineResume s = execLineResume s := rfl

theorem exec_lineResume_of_halted {s : State} (hport : s.idlePort) (hline : s.li.line = .halted) :
    exec .lineResume s = .next (({ s with li := { s.li with line := .online } } : State).answersDone 0x000C) := by
  have hfree := State.portFree_of_idlePort hport
  rw [exec_lineResume, execLineResume, if_pos hfree, hline]
  rfl

theorem exec_lineResume_of_faulted {s : State} (hport : s.idlePort) (hline : s.li.line = .faulted) :
    exec .lineResume s = .next
      (({ s with li := { s.li with line := .listen, faults := 0, recoveryTimer := .stopped,
                                   joinTimer := .running (s.lp.params.joinInterval * 1024) } } : State).answersDone
        0x000C) := by
  have hfree := State.portFree_of_idlePort hport
  rw [← State.leaveFaulted_eq, ← State.done_eq_answersDone, exec_lineResume, execLineResume, if_pos hfree, hline]

theorem exec_lineResume_refused {s : State} (hport : s.idlePort) (hhalted : s.li.line ≠ .halted)
    (hfaulted : s.li.line ≠ .faulted) :
    exec .lineResume s = .next (s.answersRefused 0x000C .wrongState) := by
  have hfree := State.portFree_of_idlePort hport
  rw [exec_lineResume, execLineResume, if_pos hfree, ← State.refuse_eq_answersRefused]
  cases hline : s.li.line with
  | halted => exact absurd hline hhalted
  | faulted => exact absurd hline hfaulted
  | offline | configFailed | listen | online => rfl

/-- Settles O47: LINE_HALT by whether the line is ONLINE, LINE_RESUME by the six line states. -/
theorem lineHaltAndResume : Obligations.LineHaltAndResume := by
  intro s hport
  constructor
  · by_cases hline : s.li.line = .online
    · rw [if_pos hline, exec_lineHalt_of_online hport hline]
    · rw [if_neg hline, exec_lineHalt_of_not_online hport hline]
  · cases hline : s.li.line with
    | halted => exact exec_lineResume_of_halted hport hline
    | faulted => exact exec_lineResume_of_faulted hport hline
    | online | listen | offline | configFailed =>
      exact exec_lineResume_refused hport (by simp [hline]) (by simp [hline])

end Sys2Proof.Machine
end

section
/-!
A claim at this station: what CLAIM answers by the window's role and state (R48, R133), and the DENY that ends it (R137,
R141).
-/

namespace Sys2Proof.Machine

/-! ### Window arguments (R48) -/

theorem windowArg_eq_some_iff {x : Word} {w : WinId} : windowArg x = some w ↔ x.toNat = w.val := by
  unfold windowArg
  split
  · simp [Fin.ext_iff]
  · have := w.isLt
    simp only [reduceCtorEq, false_iff]
    omega

theorem windowArg_eq_none_iff {x : Word} : windowArg x = none ↔ 15 < x.toNat := by
  simp only [windowArg, dite_eq_right_iff, reduceCtorEq, imp_false]
  omega

theorem State.enabledWindowArg_of_names {s : State} {x : Word} {w : WinId} (h : s.names x w) :
    s.enabledWindowArg x = some w := by
  obtain ⟨hx, henabled⟩ := h
  simp [State.enabledWindowArg, windowArg_eq_some_iff.2 hx, Window.enabled, henabled]

theorem State.enabledWindowArg_of_namesNone {s : State} {x : Word} (h : s.namesNone x) : s.enabledWindowArg x = none := by
  rcases h with habove | ⟨w, hx, hoff⟩
  · simp [State.enabledWindowArg, windowArg_eq_none_iff.2 habove]
  · simp [State.enabledWindowArg, windowArg_eq_some_iff.2 hx, Window.enabled, hoff]

/-! ### Events of a running state -/

/-- R165 and R168: with the load ended, an event changes the event unit alone, and its occurrence is given at once. -/
theorem State.recordEvent_of_runs {s : State} (hruns : s.li.line.runs) (f : EventFields) :
    s.recordEvent f = { s with en := s.eventOf f } := by
  have hloaded : s.li.line ≠ .offline := hruns.1
  simp only [State.recordEvent, State.modEn, State.eventOf, State.eventIn, EventUnit.capture, EventUnit.withEvent,
    hloaded, decide_false, Bool.false_eq_true, if_false]
  rfl

/-! ### Start and end of a claim (R134, R137) -/

/-- R134: a claim's first attempt makes a CLAIM due and runs no claim timer yet. -/
theorem State.startClaim_eq (s : State) (w : WinId) :
    s.startClaim w =
      { s with windows := s.windows.set w { s.win w with ownership := .claiming, claimAttempts := 1, claimTimer := .stopped },
               ownerDue := s.ownerDue ++ [.claim w] } := rfl

theorem OwnerFrame.source_eq_claim_iff {f : OwnerFrame} {w : WinId} : f.source = .claim w ↔ f = .claim w := by
  cases f <;> simp [OwnerFrame.source]

/-- R137: a due CLAIM of window `w` is dropped, and one on the line is marked as withdrawn and goes on. -/
theorem State.withdrawClaim_eq (s : State) (w : WinId) :
    s.withdrawClaim w =
      { s with li := { s.li with tx := s.li.tx.mapOnLine fun f => if f.source = .claim w then f.withdraw else f },
               ownerDue := s.ownerDue.filter fun x => decide (x ≠ .claim w) } := by
  simp only [State.withdrawClaim, State.withdrawOwnerFrames, State.withdrawOnLine, State.modLi, State.withdrawDue,
    OwnerFrame.source_eq_claim_iff, ← decide_not, decide_eq_true_eq]

/-- R137: an ended claim has its CLAIM withdrawn and leaves its window FOLLOWER. -/
theorem State.endClaim_of_claiming {s : State} {w : WinId} (hclaiming : (s.win w).ownership = .claiming) :
    s.endClaim w =
      { s.withdrawClaim w with
        windows := s.windows.set w { s.win w with ownership := .follower, claimAttempts := 0, claimTimer := .stopped } } := by
  simp only [State.endClaim, State.exitClaiming, if_pos hclaiming, State.withdrawClaim_eq]
  simp [State.modWin, State.win]

/-! ### DENY (R141) -/

/-- R141: the three conditions under which a DENY is taken. -/
abbrev State.takesDeny (s : State) (w : WinId) (src target : Station) : Prop :=
  (s.win w).ownership = .claiming ∧ target = s.station ∧ src = (s.win w).recordedOwner

theorem State.handleFor_deny_of_share {s : State} {w : WinId} (hshare : (s.win w).role = some .share) (src target : Station)
    (b : Word) : s.handleFor w src (.deny b target) = s.handleDeny w src target := by
  simp [State.handleFor, State.shareOnly, hshare]

theorem State.handleDeny_of_not_taken {s : State} {w : WinId} {src target : Station} (h : ¬s.takesDeny w src target) :
    s.handleDeny w src target = s := by
  rw [State.handleDeny]
  exact if_neg h

/-- A DENY that is taken ends the claim and records CLAIM_DENIED, on the event unit as the DENY found it. -/
theorem State.handleDeny_of_taken {s : State} {w : WinId} {src target : Station} (hruns : s.li.line.runs)
    (h : s.takesDeny w src target) :
    s.handleDeny w src target =
      { s.endClaim w with en := s.eventOf { cause := .claimDenied, window := some w, station := some src } } := by
  have hended := State.endClaim_of_claiming h.1
  have hrunsEnded : (s.endClaim w).li.line.runs := by rw [hended, State.withdrawClaim_eq]; exact hruns
  have hevent (f : EventFields) : (s.endClaim w).eventOf f = s.eventOf f := by rw [hended, State.withdrawClaim_eq]; rfl
  rw [State.handleDeny, if_pos h, State.recordEvent_of_runs hrunsEnded, hevent]

/-- Settles O43: a DENY that R141 takes ends the claim, any other is ignored. -/
theorem denyFramesEndClaims : Obligations.DenyFramesEndClaims := by
  intro s w src target b hruns hshare
  rw [State.handleFor_deny_of_share hshare]
  constructor
  · intro hclaiming htarget hsource
    rw [State.handleDeny_of_taken hruns ⟨hclaiming, htarget, hsource⟩, State.endClaim_of_claiming hclaiming,
      State.withdrawClaim_eq]
    exact ⟨by simp [State.win], fun v hv => by simp [State.win, Fin.val_ne_of_ne hv.symm], by simp,
      fun x hx hne => by simp [hx, hne], rfl, rfl⟩
  · exact State.handleDeny_of_not_taken

/-! ### CLAIM (R133) -/

theorem exec_claim (s : State) : exec .claim s = execClaim s := rfl

theorem exec_claim_of_namesNone {s : State} (hport : s.idlePort) (hnone : s.namesNone s.lp.args[0]) :
    exec .claim s = .next (s.answersRefused 0x0002 .badWindow) := by
  have harg : s.enabledWindowArg (s.arg 0) = none := State.enabledWindowArg_of_namesNone hnone
  rw [exec_claim, execClaim, if_pos (State.portFree_of_idlePort hport), harg, ← State.refuse_eq_answersRefused]

/-- R133: CLAIM of an enabled window, by its role, its ownership state and its sync state in this order. -/
theorem exec_claim_of_names {s : State} {w : WinId} (hport : s.idlePort) (hnames : s.names s.lp.args[0] w) :
    exec .claim s =
      .next (if (s.win w).role ≠ some .share then s.answersRefused 0x0002 .wrongRole
             else if (s.win w).ownership ≠ .follower then s.answersRefused 0x0002 .wrongState
             else if (s.win w).sync ≠ .synced then s.answersRefused 0x0002 .notSynced
             else (s.startClaim w).answersDone 0x0002) := by
  have harg : s.enabledWindowArg (s.arg 0) = some w := State.enabledWindowArg_of_names hnames
  have hrole : (!(s.win w).isShare) = true ↔ (s.win w).role ≠ some .share := by simp [Window.isShare]
  rw [exec_claim, execClaim, if_pos (State.portFree_of_idlePort hport), harg]
  simp only [hrole, State.refuse_eq_answersRefused, State.done_eq_answersDone]

/-- R12: in another line state than ONLINE no frame begins. -/
theorem exec_transmitStart_of_not_online {s : State} (hline : s.li.line ≠ .online) :
    exec .transmitStart s = .next s := by
  have hmay : s.mayBegin = false := by simp [State.mayBegin, hline]
  change execTransmitStart s = .next s
  rw [execTransmitStart, if_neg (by simp [hmay])]

/-- Settles O49: CLAIM's refusals in the order of R133, and the claim that a SYNCED FOLLOWER starts. -/
theorem claimCommand : Obligations.ClaimCommand := by
  refine ⟨fun s => exec_transmitStart_of_not_online, fun s hport => ⟨exec_claim_of_namesNone hport, fun w hnames => ?_⟩⟩
  rw [exec_claim_of_names hport hnames]
  refine ⟨fun hrole => by rw [if_pos hrole], fun hshare => ?_⟩
  rw [if_neg (not_not.2 hshare)]
  refine ⟨fun hstate => by rw [if_pos hstate], fun hfollower => ?_⟩
  rw [if_neg (not_not.2 hfollower)]
  refine ⟨fun hsync => by rw [if_pos hsync], fun hsynced => ?_⟩
  rw [if_neg (not_not.2 hsynced), State.startClaim_eq]

end Sys2Proof.Machine
end

section
/-!
The image's integrity checks (R185): what a failed load leaves, the checks in the image bytes' own words, and the load that
each outcome ends.
-/

namespace Sys2Proof.Machine

/-! ### The end of a load (R185, R188) -/

theorem State.failLoad_eq_loadFailed (s : State) (r : LoadResult) : s.failLoad r = s.loadFailed r := rfl

/-- R188: a taken image ends the load GOOD. -/
@[simp] theorem State.acceptImage_loadResult (s : State) (img : List Byte) :
    (s.acceptImage img).lp.loadResult = .good := rfl

/-- R188: a taken image brings the line to LISTEN. -/
@[simp] theorem State.acceptImage_line (s : State) (img : List Byte) : (s.acceptImage img).li.line = .listen := rfl

/-! ### The image's bytes -/

/-- The 228 bytes under the CRC: marker and length, most significant byte first, and the first 224 of the others. -/
theorem take_wholeImage (rest : List Byte) : (wholeImage rest).take 228 = [0x5A, 0x3C, 0, 230] ++ rest.take 224 := rfl

/-- Image offsets count the four bytes of marker and length. -/
theorem imageByte_wholeImage (rest : List Byte) (i : Nat) : imageByte (wholeImage rest) (i + 4) = rest.getD i 0 := rfl

theorem imageWord_wholeImage (rest : List Byte) (i : Nat) :
    imageWord (wholeImage rest) (i + 4) = rest.getD i 0 ++ rest.getD (i + 1) 0 := rfl

/-! ### Checks 3 to 5 of R185 -/

/-- Station numbers are 1 to 30. -/
theorem not_isStation_iff (x : Byte) : (!isStation x) = true ↔ x = 0 ∨ 31 ≤ x.toNat := by
  have hzero : x = 0 ↔ x.toNat = 0 := BitVec.toNat_inj.symm
  simp only [isStation, Bool.not_eq_true', Bool.and_eq_false_iff, decide_eq_false_iff_not, hzero]
  omega

/-- A domain set holds no domain exactly when both its bytes are 0. -/
theorem append_bytes_eq_zero_iff (high low : Byte) : (high ++ low : Word) = 0 ↔ high = 0 ∧ low = 0 := by
  have htoNat : (high ++ low : Word).toNat = high.toNat <<< 8 ||| low.toNat := BitVec.toNat_append high low
  simp [← BitVec.toNat_inj, htoNat, Nat.or_eq_zero_iff]

/-- R185: checks 3 to 5 over the bytes that follow marker and length. -/
theorem imageFault_wholeImage (rest : List Byte) :
    imageFault (wholeImage rest) =
      if crc ([0x5A, 0x3C, 0, 230] ++ rest.take 224) ≠ rest.getD 224 0 ++ rest.getD 225 0 then some .badCrc
      else if rest.getD 0 0 = 0 ∨ 31 ≤ (rest.getD 0 0).toNat then some .badStation
      else if rest.getD 1 0 = 0 ∧ rest.getD 2 0 = 0 then some .noDomain
      else none := by
  simp only [imageFault, take_wholeImage, imageWord_wholeImage rest 224, imageByte_wholeImage rest 0,
    imageWord_wholeImage rest 1, not_isStation_iff, append_bytes_eq_zero_iff]

/-! ### CONFIG_HEADER_READ and CONFIG_IMAGE_READ -/

theorem exec_configHeaderRead (marker length : Word) (s : State) :
    exec (.configHeaderRead marker length) s = execConfigHeaderRead marker length s := rfl

theorem exec_configImageRead (rest : List Byte) (s : State) :
    exec (.configImageRead rest) s = execConfigImageRead rest s := rfl

/-- Checks 1 and 2 of R185: the marker before the length, and an image that passes both is read on. -/
theorem exec_configHeaderRead_of_header {s : State} (marker length : Word) (hload : s.lp.load = .header) :
    exec (.configHeaderRead marker length) s =
      .next (if marker ≠ 0x5A3C then s.loadFailed .badMarker
             else if length ≠ 230 then s.loadFailed .badLength
             else { s with lp := { s.lp with load := .image } }) := by
  rw [exec_configHeaderRead, execConfigHeaderRead, if_pos hload]
  rfl

section
variable {s : State} {rest : List Byte} (hload : s.lp.load = .image) (hlength : rest.length = 226)
include hload hlength

/-- The first of checks 3 to 5 that fails ends the load and takes no image value. -/
theorem exec_configImageRead_of_fault {r : LoadResult} (hfault : imageFault (wholeImage rest) = some r) :
    exec (.configImageRead rest) s = .next (s.loadFailed r) := by
  rw [exec_configImageRead, execConfigImageRead, if_pos ⟨hload, hlength⟩, hfault]
  rfl

/-- An image that passes every check is taken. -/
theorem exec_configImageRead_of_passes (hpasses : imageFault (wholeImage rest) = none) :
    exec (.configImageRead rest) s =
      .next ((s.modLp fun lp => { lp with spiSelect := false, load := .none }).acceptImage (wholeImage rest)) := by
  rw [exec_configImageRead, execConfigImageRead, if_pos ⟨hload, hlength⟩, hpasses]

end

/-- Settles O6: the header's two checks, then the first failing check of the image, or the image taken. -/
theorem imageIntegrityChecks : Obligations.ImageIntegrityChecks := by
  refine ⟨fun s marker length => exec_configHeaderRead_of_header marker length, fun s rest hload hlength => ?_⟩
  have hfault := imageFault_wholeImage rest
  split_ifs at hfault ⊢ with hcrc hstation hdomain
  · exact exec_configImageRead_of_fault hload hlength hfault
  · exact exec_configImageRead_of_fault hload hlength hfault
  · exact exec_configImageRead_of_fault hload hlength hfault
  · exact ⟨_, exec_configImageRead_of_passes hload hlength hfault, State.acceptImage_loadResult _ _,
      State.acceptImage_line _ _⟩

end Sys2Proof.Machine
end

section
/-!
What every command does to the queue of commands and to the replica's canonical form (R32), and the first steps.
-/

namespace Sys2Proof.Machine

/-- `t` has the queue of `s`, and a canonical replica if `s` has one. -/
abbrev State.Orderly (s t : State) : Prop :=
  t.pending = s.pending ∧ (Memory.wf s.rm.mem = true → Memory.wf t.rm.mem = true)

theorem State.reset_wf : Memory.wf State.reset.rm.mem = true := by decide

/-- Every command answers a next state. Each branch of its meaning is a chain of the shared operations, whose laws of the
queue and of the replica's form are simp lemmas. -/
theorem exec_orderly (c : Instr) (s : State) : ∃ t : State, exec c s = .next t ∧ s.Orderly t := by
  cases c
  case powerOn => exact ⟨_, rfl, rfl, fun _ => State.reset_wf⟩
  case reset => exact ⟨_, rfl, rfl, fun _ => State.reset_wf⟩
  case transmitFault =>
    refine ⟨_, rfl, ?_⟩
    split
    · exact ⟨rfl, id⟩
    · simp only
      split <;> simp [State.Orderly]
  all_goals
    refine ⟨_, rfl, ?_, fun h => ?_⟩
    · (repeat' split) <;> simp
    · (repeat' split) <;> simp [h]

theorem State.tick_wf {s : State} (h : Memory.wf s.rm.mem = true) : Memory.wf s.tick.rm.mem = true := by
  unfold State.tick
  (repeat' split) <;> exact h

theorem step_of_empty {s : State} (h : s.pending = []) : step s = .next s.tick := by simp [step, h]

theorem step_of_front {s : State} {c : Instr} {rest : List Instr} (h : s.pending = c :: rest) :
    step s = exec c { s with pending := rest } := by simp [step, h]

/-- Settles O4. -/
theorem everyCommandAnswersNext : Obligations.EveryCommandAnswersNext := by
  intro c s
  obtain ⟨t, ht, hpending, -⟩ := exec_orderly c s
  exact ⟨t, ht, hpending⟩

/-- Settles O56: a bit time leaves the replica as it is, and a command keeps its form. -/
theorem stepKeepsReplicaCanonical : Obligations.StepKeepsReplicaCanonical := by
  intro s t hwf hstep
  cases hpending : s.pending with
  | nil =>
    rw [step_of_empty hpending] at hstep
    obtain rfl := Host.Outcome.next.inj hstep
    exact State.tick_wf hwf
  | cons c rest =>
    rw [step_of_front hpending] at hstep
    obtain ⟨u, hu, -, hkeeps⟩ := exec_orderly c { s with pending := rest }
    obtain rfl := Host.Outcome.next.inj (hu.symm.trans hstep)
    exact hkeeps hwf

/-- Settles O1. -/
theorem stepRunsFrontCommand : Obligations.StepRunsFrontCommand := fun _ _ _ => rfl

/-- Settles O60: the initial state's lists are empty and its windows have no role. -/
theorem resetMeetsInvariants : Obligations.ResetMeetsInvariants := by
  have hlists : ListsBounded State.reset := by decide +kernel
  have htaken : TakenWritesHaveRoom State.reset := by
    simp [TakenWritesHaveRoom, State.reset, LocalPort.initial]
  exact ⟨State.reset_wf, by decide, by decide, by decide, hlists, htaken⟩

end Sys2Proof.Machine
end

section
/-!
Transmission (01, 1.3): the frame that is due, by its source class, and what assembly takes from the post queue.
-/

namespace Sys2Proof.Machine

/-! ### The UPDATE's entries (R66) -/

theorem PostQueue.updateDue_iff {q : PostQueue} :
    q.updateDue = true ↔ ∃ (e : PostEntry) (es : List PostEntry), q.entries = e :: es ∧ (es = [] → q.mergeHold = false) := by
  unfold PostQueue.updateDue
  split <;> simp_all

/-- The entries behind the head that an UPDATE takes, after `k` records of `n` bytes: of its window, within four records and
256 bytes, without the last one under a merge hold, up to the first that fails. -/
theorem takenEntries_spec (w : WinId) (hold : Bool) (k n : Nat) (rest : List PostEntry) (hk : k ≤ 4) :
    let m := takenEntries w hold k n rest
    m ≤ rest.length ∧ k + m ≤ 4 ∧ (∀ e ∈ rest.take m, e.window = w) ∧ (m = 0 ∨ n + postBytes (rest.take m) ≤ 256) ∧
      (hold = true → rest ≠ [] → m < rest.length) ∧
      ∀ e : PostEntry, rest[m]? = some e →
        e.window ≠ w ∨ k + m = 4 ∨ 256 < n + postBytes (rest.take m) + e.data.length ∨
          (hold = true ∧ rest.length = m + 1) := by
  induction rest generalizing k n with
  | nil => simp [takenEntries, hk]
  | cons e rest ih =>
    simp only [takenEntries]
    split
    · next htaken =>
      obtain ⟨hw, hrecords, hbytes, hhold⟩ := htaken
      have hrecords' : k < 4 := hrecords
      have hbytes' : n + e.data.length ≤ 256 := hbytes
      obtain ⟨hlength, hfour, hwin, hsum, hlast, hstop⟩ := ih (k + 1) (n + e.data.length) hrecords'
      generalize takenEntries w hold (k + 1) (n + e.data.length) rest = m at *
      have hpost (es : List PostEntry) : n + postBytes (e :: es) = n + e.data.length + postBytes es := by
        simp [postBytes, Nat.add_assoc]
      refine ⟨by simpa using hlength, by omega, by simpa [hw] using hwin, .inr ?_, fun hh _ => ?_, fun x hx => ?_⟩
      · rw [List.take_succ_cons, hpost]
        rcases hsum with rfl | hsum
        · simpa [postBytes] using hbytes'
        · exact hsum
      · have hrest : rest ≠ [] := fun hnil => hhold ⟨hh, by simp [hnil]⟩
        simpa using hlast hh hrest
      · rw [List.take_succ_cons, hpost]
        rcases hstop x (by simpa using hx) with hx | hx | hx | ⟨hh, hx⟩
        · exact .inl hx
        · exact .inr (.inl (by omega))
        · exact .inr (.inr (.inl hx))
        · exact .inr (.inr (.inr ⟨hh, by simp [hx]⟩))
    · next hfails =>
      refine ⟨by simp, hk, by simp, .inl rfl, by simp, fun x hx => ?_⟩
      obtain rfl : e = x := by simpa using hx
      by_contra hnot
      simp only [not_or, not_and, not_not, Nat.add_zero, List.take_zero, postBytes, List.map_nil, List.sum_nil,
        Nat.not_lt] at hnot
      obtain ⟨hw, hrecords, hbytes, hhold⟩ := hnot
      have hlt : k < 4 := by omega
      refine hfails ⟨hw, hlt, hbytes, fun ⟨hh, hempty⟩ => hhold hh ?_⟩
      simp [List.isEmpty_iff.1 hempty]

/-- R66: the entries an UPDATE takes. -/
theorem PostQueue.takesFirst_taken {q : PostQueue} {e : PostEntry} {es : List PostEntry} (hq : q.entries = e :: es)
    (hdue : q.updateDue = true) : q.takesFirst e.window q.taken := by
  have htaken : q.taken = takenEntries e.window q.mergeHold 1 e.data.length es + 1 := by simp only [PostQueue.taken, hq]
  obtain ⟨hlength, hfour, hwin, hsum, hlast, hstop⟩ :=
    takenEntries_spec e.window q.mergeHold 1 e.data.length es (by decide)
  obtain ⟨e', es', hq', hhold⟩ := PostQueue.updateDue_iff.1 hdue
  obtain ⟨rfl, rfl⟩ := List.cons.inj (hq.symm.trans hq')
  rw [htaken]
  generalize takenEntries e.window q.mergeHold 1 e.data.length es = m at *
  have hpost (l : List PostEntry) : postBytes (e :: l) = e.data.length + postBytes l := by simp [postBytes]
  rw [PostQueue.takesFirst, hq, List.take_succ_cons, hpost]
  refine ⟨by omega, by simpa using hlength, by omega, by simpa using hwin, ?_, fun hh => ?_, fun x hx => ?_⟩
  · rcases hsum with rfl | hsum
    · exact .inl rfl
    · exact .inr hsum
  · have hes : es ≠ [] := fun hnil => by simp [hhold hnil] at hh
    simpa using hlast hh hes
  · rcases hstop x (by simpa using hx) with hx | hx | hx | ⟨hh, hx⟩
    · exact .inl hx
    · exact .inr (.inl (by omega))
    · exact .inr (.inr (.inl hx))
    · exact .inr (.inr (.inr ⟨hh, by simp [hx]⟩))

/-! ### The frame that is due, by its class (R13) -/

theorem State.nextFrame_of_owner {s : State} {f : OwnerFrame} {rest : List OwnerFrame} (h : s.ownerDue = f :: rest) :
    s.nextFrame = some (s.assembleOwner f) := by
  simp only [State.nextFrame, h]

section Later
variable {s : State} (howner : s.ownerDue = [])
include howner

theorem State.nextFrame_of_update {e : PostEntry} {es : List PostEntry} (hq : s.pq.entries = e :: es)
    (hdue : s.pq.updateDue = true) : s.nextFrame = some (s.assembleUpdate e.window) := by
  simp [State.nextFrame, howner, hdue, PostQueue.headWindow, hq]

theorem State.nextFrame_of_mark (hdue : s.pq.updateDue = false) {w : WinId} (hmark : allWindows.find? s.markDue = some w) :
    s.nextFrame = some (s.assembleMark w) := by
  simp [State.nextFrame, howner, hdue, hmark]

theorem State.nextFrame_of_request (hdue : s.pq.updateDue = false) (hmark : allWindows.find? s.markDue = none) {w : WinId}
    (hreserved : allWindows.find? (fun w => (s.reservedCtx w).isSome) = some w) :
    s.nextFrame = some (s.assembleRequest w) := by
  simp only [State.nextFrame, howner, hdue, hmark, hreserved, Bool.false_eq_true, if_false]

theorem State.nextFrame_of_sweep (hdue : s.pq.updateDue = false) (hmark : allWindows.find? s.markDue = none)
    (hreserved : allWindows.find? (fun w => (s.reservedCtx w).isSome) = none) {c : Sweep} (hsweep : s.sweepDue = true)
    (hc : s.se.current = some c) : s.nextFrame = some (s.assembleSweep c) := by
  simp only [State.nextFrame, howner, hdue, hmark, hreserved, hsweep, hc, Bool.false_eq_true, if_false, if_true]

theorem State.nextFrame_of_message (hdue : s.pq.updateDue = false) (hmark : allWindows.find? s.markDue = none)
    (hreserved : allWindows.find? (fun w => (s.reservedCtx w).isSome) = none) (hsweep : s.sweepDue = false) :
    s.nextFrame = s.mu.outQueue.head?.map fun m => .fresh .message (m.frame s.station s.lp.params.domainSet) false := by
  simp only [State.nextFrame, howner, hdue, hmark, hreserved, hsweep, Bool.false_eq_true, if_false]

end Later

/-- The frame that is due is the assembled one of some source class. -/
theorem State.nextFrame_cases {s : State} {o : OnLine} (h : s.nextFrame = some o) :
    (∃ f ∈ s.ownerDue, o = s.assembleOwner f) ∨
      (∃ (e : PostEntry) (es : List PostEntry), s.pq.entries = e :: es ∧ s.pq.updateDue = true ∧
        o = s.assembleUpdate e.window) ∨
      (∃ w : WinId, o = s.assembleMark w) ∨ (∃ w : WinId, o = s.assembleRequest w) ∨
      (∃ c : Sweep, s.se.current = some c ∧ o = s.assembleSweep c) ∨
      ∃ (m : OutMessage) (rest : List OutMessage), s.mu.outQueue = m :: rest ∧
        o = .fresh .message (m.frame s.station s.lp.params.domainSet) false := by
  cases howner : s.ownerDue with
  | cons f rest =>
    rw [State.nextFrame_of_owner howner] at h
    exact .inl ⟨f, by simp, (Option.some.inj h).symm⟩
  | nil =>
  cases hdue : s.pq.updateDue with
  | true =>
    obtain ⟨e, es, hq, -⟩ := PostQueue.updateDue_iff.1 hdue
    rw [State.nextFrame_of_update howner hq hdue] at h
    exact .inr (.inl ⟨e, es, hq, rfl, (Option.some.inj h).symm⟩)
  | false =>
  cases hmark : allWindows.find? s.markDue with
  | some w =>
    rw [State.nextFrame_of_mark howner hdue hmark] at h
    exact .inr (.inr (.inl ⟨w, (Option.some.inj h).symm⟩))
  | none =>
  cases hreserved : allWindows.find? fun w => (s.reservedCtx w).isSome with
  | some w =>
    rw [State.nextFrame_of_request howner hdue hmark hreserved] at h
    exact .inr (.inr (.inr (.inl ⟨w, (Option.some.inj h).symm⟩)))
  | none =>
  cases hsweep : s.sweepDue with
  | true =>
    cases hc : s.se.current with
    | none => simp [State.sweepDue, hc] at hsweep
    | some c =>
      rw [State.nextFrame_of_sweep howner hdue hmark hreserved hsweep hc] at h
      exact .inr (.inr (.inr (.inr (.inl ⟨c, rfl, (Option.some.inj h).symm⟩))))
  | false =>
    rw [State.nextFrame_of_message howner hdue hmark hreserved hsweep] at h
    cases hqueue : s.mu.outQueue with
    | nil => simp [hqueue] at h
    | cons m rest =>
      rw [hqueue] at h
      exact .inr (.inr (.inr (.inr (.inr ⟨m, rest, rfl, (Option.some.inj h).symm⟩))))

theorem State.mayBegin_iff {s : State} : s.mayBegin = true ↔ s.readyToSend := by
  simp [State.mayBegin, State.readyToSend, and_assoc]
  exact fun _ _ _ => Iff.rfl

theorem exec_transmitStart_of_none {s : State} (h : s.nextFrame = none) : exec .transmitStart s = .next s := by
  simp [exec, execTransmitStart, h]

theorem exec_transmitStart_of_next {s : State} (hready : s.readyToSend) {o : OnLine} (h : s.nextFrame = some o) :
    exec .transmitStart s = .next ((s.assembled o).setTx (.arbitrate o)) := by
  simp [exec, execTransmitStart, State.mayBegin_iff.2 hready, h]

/-! ### What each frame carries -/

/-- A frame's station and state as it begins, the same for every source. -/
abbrev OnLine.begins (o : OnLine) (s : State) : Prop :=
  o.frame.source = s.station ∧ o.withdrawn = false ∧ o.sent = 0 ∧ s.carries o

theorem State.assembleOwner_begins {s : State} {f : OwnerFrame} (h : f ∈ s.ownerDue) : (s.assembleOwner f).begins s := by
  cases f with
  | takeover w g q => exact ⟨rfl, rfl, rfl, rfl, rfl, g, q, h, rfl⟩
  | _ => exact ⟨rfl, rfl, rfl, rfl, rfl, rfl⟩

theorem State.assembleUpdate_begins {s : State} {e : PostEntry} {es : List PostEntry} (hq : s.pq.entries = e :: es)
    (hdue : s.pq.updateDue = true) : (s.assembleUpdate e.window).begins s :=
  ⟨rfl, rfl, rfl, rfl, rfl, s.pq.taken, PostQueue.takesFirst_taken hq hdue, rfl, rfl⟩

theorem State.assembleSweep_begins {s : State} {c : Sweep} (h : s.se.current = some c) :
    (s.assembleSweep c).begins s := by
  unfold State.assembleSweep
  split
  · next hphase => exact ⟨rfl, rfl, rfl, rfl, rfl, c, h, rfl, hphase, rfl⟩
  · next hphase => exact ⟨rfl, rfl, rfl, rfl, rfl, rfl, c, h, rfl, hphase, rfl⟩
  · next hphase => exact ⟨rfl, rfl, rfl, rfl, rfl, c, h, rfl, hphase, rfl⟩

/-- R156: the message domain is the lowest-numbered one of the set, for a set that is not empty. -/
theorem messageDomain_spec (set : Word) :
    (set ≠ 0 → set.getLsbD (messageDomain set).toNat = true) ∧
      ∀ d : Nat, d < 16 → set.getLsbD d = true → (messageDomain set).toNat ≤ d := by
  unfold messageDomain
  cases hfind : (List.range 16).find? fun d => set.getLsbD d with
  | none =>
    have hall : ∀ d : Nat, d < 16 → set.getLsbD d = false := by simpa using hfind
    refine ⟨fun hset => absurd (BitVec.eq_of_getLsbD_eq fun i hi => ?_) hset, fun d hd hbit => by simp [hall d hd] at hbit⟩
    simp [hall i hi]
  | some d =>
    obtain ⟨hbit, hd, hfirst⟩ := List.find?_range_eq_some.1 hfind
    have hd' : d < 16 := by simpa using hd
    simp only [Option.getD_some, BitVec.toNat_ofNat, Nat.mod_eq_of_lt hd']
    refine ⟨fun _ => hbit, fun e he hebit => ?_⟩
    by_contra hlt
    simpa [hebit] using hfirst e (by omega)

theorem OutMessage.frame_begins {s : State} {m : OutMessage} {rest : List OutMessage} (h : s.mu.outQueue = m :: rest) :
    (OnLine.fresh .message (m.frame s.station s.lp.params.domainSet) false).begins s :=
  ⟨rfl, rfl, rfl, m, rest, h, rfl, (messageDomain_spec _).1, (messageDomain_spec _).2, rfl⟩

/-- Settles O18. -/
theorem framesCarryTheirSourcesValues : Obligations.FramesCarryTheirSourcesValues := by
  intro s o ho
  rcases State.nextFrame_cases ho with ⟨f, hf, rfl⟩ | ⟨e, es, hq, hdue, rfl⟩ | ⟨w, rfl⟩ | ⟨w, rfl⟩ | ⟨c, hc, rfl⟩ | ⟨m, rest, hm, rfl⟩
  · exact State.assembleOwner_begins hf
  · exact State.assembleUpdate_begins hq hdue
  · exact ⟨rfl, rfl, rfl, rfl, rfl, rfl⟩
  · exact ⟨rfl, rfl, rfl, rfl, rfl, rfl⟩
  · exact State.assembleSweep_begins hc
  · exact OutMessage.frame_begins hm

/-- An UPDATE that is due carries the numbers of the entries its assembly takes. -/
theorem State.taken_of_update {s : State} {o : OnLine} (ho : s.nextFrame = some o) {w : WinId} {q : List Word}
    (hsource : o.source = .update w q) :
    q.length = s.pq.taken ∧ s.pq.takesFirst w s.pq.taken := by
  rcases State.nextFrame_cases ho with ⟨f, -, rfl⟩ | ⟨e, es, hq, hdue, rfl⟩ | ⟨v, rfl⟩ | ⟨v, rfl⟩ | ⟨c, -, rfl⟩ | ⟨m, rest, -, rfl⟩
  · cases f <;> cases hsource
  · obtain ⟨rfl, rfl⟩ : e.window = w ∧ (s.pq.entries.take s.pq.taken).map (·.seq) = q := by
      simpa [State.assembleUpdate, OnLine.fresh] using hsource
    have htakes := PostQueue.takesFirst_taken hq hdue
    exact ⟨by simpa using htakes.2.1, htakes⟩
  · cases hsource
  · cases hsource
  · revert hsource
    unfold State.assembleSweep
    split <;> exact nofun
  · cases hsource

/-- Settles O16. -/
theorem transmitStartAssembles : Obligations.TransmitStartAssembles := by
  refine ⟨fun s h => ?_, fun s o hready ho => ⟨_, exec_transmitStart_of_next hready ho, ?_, fun w q hsource => ?_, fun hnot => ?_, fun w hsource => ?_, fun hnot => ?_⟩⟩
  · rcases h with hnot | hnone
    · rw [← State.mayBegin_iff] at hnot
      simp [exec, execTransmitStart, hnot]
    · exact exec_transmitStart_of_none hnone
  · unfold State.assembled
    split <;> rfl
  · rw [(State.taken_of_update ho hsource).1]
    simp only [State.assembled, hsource]
    exact ⟨rfl, rfl⟩
  · unfold State.assembled
    split
    · next w q hsource => exact absurd hsource (hnot w q)
    all_goals rfl
  · simp only [State.assembled, hsource]
    rfl
  · unfold State.assembled
    split
    · rfl
    · next w hsource => exact absurd hsource (hnot w)
    all_goals rfl

/-! ### Which frame is due -/

theorem State.markDue_iff {s : State} {w : WinId} :
    s.markDue w = true ↔ (s.win w).ownership = .owner ∧ (∀ e ∈ s.pq.entries, e.window ≠ w) ∧
      ((s.win w).markNow = true ∨ (s.win w).markTimer = .running 0) := by
  have hexpired : (s.win w).markTimer.expired = true ↔ (s.win w).markTimer = .running 0 := by
    cases (s.win w).markTimer with
    | stopped => simp [Timer.expired]
    | running n => simp [Timer.expired]
  simp [State.markDue, PostQueue.holds, hexpired, and_assoc]

theorem State.reservedCtx_ne_none_iff {s : State} {w : WinId} :
    s.reservedCtx w ≠ none ↔ ∃ i : Fin 2, s.ctx i = .reserved w := by
  unfold State.reservedCtx State.findCtx
  rw [Fin.exists_fin_two]
  split_ifs with h0 h1 <;> simp_all

theorem State.sweepDue_iff {s : State} :
    s.sweepDue = true ↔ ∃ c : Sweep, s.se.current = some c ∧
      (c.phase = .beginDue → s.pq.mergeHold = true → ∀ (front : List PostEntry) (e : PostEntry),
        s.pq.entries = front ++ [e] → e.window ≠ c.window) := by
  unfold State.sweepDue
  cases hc : s.se.current with
  | none => simp
  | some c =>
    have hlast : (s.pq.entries.getLast?.any fun e => decide (e.window = c.window)) = false ↔
        ∀ (front : List PostEntry) (e : PostEntry), s.pq.entries = front ++ [e] → e.window ≠ c.window := by
      simp only [Option.any_eq_false, decide_eq_false_iff_not, List.getLast?_eq_some_iff]
      exact ⟨fun h front e he => h e ⟨front, he⟩, fun h e ⟨front, he⟩ => h front e he⟩
    cases hphase : c.phase with
    | beginDue =>
      cases hhold : s.pq.mergeHold with
      | false => simp [hphase]
      | true => simpa [hphase] using hlast
    | data => simp [hphase]
    | endDue => simp [hphase]

theorem allWindows_eq : allWindows = List.finRange 16 := by decide

@[simp] theorem mem_allWindows (w : WinId) : w ∈ allWindows := by simp [allWindows_eq]

theorem find?_allWindows_eq_some {p : WinId → Bool} {w : WinId} (hw : p w = true)
    (hfirst : ∀ v : WinId, v < w → p v = false) : allWindows.find? p = some w := by
  rw [allWindows_eq, List.find?_eq_some_iff_getElem]
  refine ⟨hw, w.val, by simp, by simp, fun j hj => ?_⟩
  simpa using hfirst ⟨j, hj.trans w.isLt⟩ hj

theorem find?_allWindows_eq_none {p : WinId → Bool} : allWindows.find? p = none ↔ ∀ w : WinId, p w = false := by
  simp only [List.find?_eq_none, mem_allWindows, true_implies, Bool.not_eq_true]

/-- Settles O17. -/
theorem sourceClassesInOrder : Obligations.SourceClassesInOrder := by
  intro s
  refine ⟨PostQueue.updateDue_iff, fun w => State.markDue_iff, fun w => State.reservedCtx_ne_none_iff, State.sweepDue_iff,
    fun f rest hf => ⟨_, State.nextFrame_of_owner hf, by cases f <;> rfl⟩, fun howner => ⟨fun e es hq hhold => ?_, fun hdue => ⟨fun w hw hfirst => ?_, fun hmark => ?_⟩⟩⟩
  · exact ⟨_, _, State.nextFrame_of_update howner hq (PostQueue.updateDue_iff.2 ⟨e, es, hq, hhold⟩), rfl⟩
  · exact ⟨_, State.nextFrame_of_mark howner hdue (find?_allWindows_eq_some hw hfirst), rfl⟩
  replace hmark := find?_allWindows_eq_none.2 hmark
  refine ⟨fun w hw hfirst => ?_, fun hreserved => ?_⟩
  · refine ⟨_, State.nextFrame_of_request howner hdue hmark (find?_allWindows_eq_some ?_ fun v hv => ?_), rfl⟩
    · simpa [Option.isSome_iff_ne_none] using hw
    · simp [hfirst v hv]
  replace hreserved : allWindows.find? (fun w => (s.reservedCtx w).isSome) = none :=
    find?_allWindows_eq_none.2 fun w => by simp [hreserved w]
  refine ⟨fun c hc hsweep => ⟨_, State.nextFrame_of_sweep howner hdue hmark hreserved hsweep hc, ?_⟩, fun hsweep => ?_⟩
  · unfold State.assembleSweep
    cases c.phase <;> rfl
  · rw [State.nextFrame_of_message howner hdue hmark hreserved hsweep]
    refine ⟨fun m rest hm => ⟨_, by rw [hm]; rfl, rfl⟩, fun hm => by rw [hm]; rfl⟩

end Sys2Proof.Machine
end

section
/-!
The load of a good image (R39 to R44, R158, R168, R187, R188): the windows one by one, the events in their order, and what
the load leaves as it is.
-/

namespace Sys2Proof.Machine

/-! ### One window (R39, R41, R49) -/

theorem State.win_recordEvent (s : State) (f : EventFields) (w : WinId) : (s.recordEvent f).win w = s.win w := rfl

/-- The events of one window's check: CONFIG_WINDOW if it is rejected (R42). -/
def Standing.events (w : WinId) : Standing → List EventFields
  | .rejected _ => [{ cause := .configWindow, window := some w }]
  | .notLoaded | .off | .enabled => []

/-- The event unit after events recorded at one line time. -/
def EventUnit.captures (e : EventUnit) (fs : List EventFields) (t : BitVec 32) (loading : Bool) (v : BitVec 2) : EventUnit :=
  fs.foldl (fun e f => e.capture f t loading v) e

/-- The event unit after events recorded by a state. -/
def State.capturesIn (s : State) (e : EventUnit) (fs : List EventFields) : EventUnit :=
  e.captures fs s.li.lineTime (decide (s.li.line = .offline)) s.lp.params.eventVector

section Window
variable (s : State) (set : Word) (station : Station) (w : WinId) (d : Descriptor)

theorem State.takeWindow_eq : s.takeWindow set station w d =
    { s with
      windows := s.windows.set w ((s.win w).load d (d.standing set station s.enabledDescriptors) station)
      en := s.capturesIn s.en ((d.standing set station s.enabledDescriptors).events w) } := by
  simp only [State.takeWindow]
  split <;> next h => simp only [h]; rfl

theorem State.takeWindow_win : (s.takeWindow set station w d).win w =
    (s.win w).load d (d.standing set station s.enabledDescriptors) station := by
  rw [State.takeWindow_eq]
  exact s.win_modWin w fun x => x.load d (d.standing set station s.enabledDescriptors) station

theorem State.takeWindow_win_of_ne {v : WinId} (h : v ≠ w) : (s.takeWindow set station w d).win v = s.win v := by
  rw [State.takeWindow_eq]
  exact s.win_modWin_of_ne (fun x => x.load d (d.standing set station s.enabledDescriptors) station) h

end Window

/-! ### The windows in their order -/

/-- The windows of a list taken from the image in turn. -/
def State.takeList (s : State) (img : List Byte) (l : List WinId) : State :=
  l.foldl (fun t w => t.takeWindow (imageWord img 5) (imageByte img 4) w (imageDescriptor img w)) s

theorem State.takeWindows_eq (s : State) (img : List Byte) : s.takeWindows img = s.takeList img allWindows := rfl

/-- The standing window `w` gets when the windows stand as in `s`. -/
def State.imageStanding (s : State) (img : List Byte) (w : WinId) : Standing :=
  (imageDescriptor img w).standing (imageWord img 5) (imageByte img 4) s.enabledDescriptors

theorem State.takeList_append (s : State) (img : List Byte) (l l' : List WinId) :
    s.takeList img (l ++ l') = (s.takeList img l).takeList img l' := List.foldl_append

theorem State.takeList_win_of_not_mem (s : State) (img : List Byte) {l : List WinId} {v : WinId} (h : v ∉ l) :
    (s.takeList img l).win v = s.win v := by
  induction l generalizing s with
  | nil => rfl
  | cons w rest ih =>
    rw [List.mem_cons, not_or] at h
    exact (ih _ h.2).trans (State.takeWindow_win_of_ne _ _ _ _ _ h.1)

/-- A window is taken when its turn comes, and no later one changes it. -/
theorem State.takeList_win (s : State) (img : List Byte) {before after : List WinId} {w : WinId} (hbefore : w ∉ before)
    (hafter : w ∉ after) :
    (s.takeList img (before ++ w :: after)).win w =
      (s.win w).load (imageDescriptor img w) ((s.takeList img before).imageStanding img w) (imageByte img 4) := by
  rw [State.takeList_append]
  change (((s.takeList img before).takeWindow _ _ w _).takeList img after).win w = _
  rw [State.takeList_win_of_not_mem _ _ hafter, State.takeWindow_win, State.takeList_win_of_not_mem _ _ hbefore]
  rfl

/-- What the windows' taking leaves as it is. -/
theorem State.takeList_frame (s : State) (img : List Byte) (l : List WinId) :
    s.takeList img l = { s with windows := (s.takeList img l).windows, en := (s.takeList img l).en } := by
  suffices h : ∃ ws e, s.takeList img l = { s with windows := ws, en := e } by
    obtain ⟨ws, e, h⟩ := h
    rw [h]
  induction l generalizing s with
  | nil => exact ⟨s.windows, s.en, rfl⟩
  | cons w rest ih =>
    obtain ⟨ws, e, h⟩ := ih (s.takeWindow (imageWord img 5) (imageByte img 4) w (imageDescriptor img w))
    refine ⟨ws, e, h.trans ?_⟩
    rw [State.takeWindow_eq]

/-- Every window has been taken: its descriptor, the run-time values of its role, and a standing that is OFF exactly for a
window whose enable is clear. -/
theorem State.takeWindows_win (s : State) (img : List Byte) (w : WinId) : ∃ standing : Standing,
    (s.takeWindows img).win w = (s.win w).load (imageDescriptor img w) standing (imageByte img 4) ∧
      ((imageDescriptor img w).enable = false ↔ standing = .off) := by
  obtain ⟨before, after, hsplit⟩ := List.append_of_mem (mem_allWindows w)
  have hnodup : (before ++ w :: after).Nodup := hsplit ▸ (by decide)
  obtain ⟨-, hnotafter, hdisjoint⟩ := List.nodup_append.1 hnodup
  refine ⟨(s.takeList img before).imageStanding img w, ?_, ?_⟩
  · rw [State.takeWindows_eq, hsplit]
    exact State.takeList_win s img (fun h => hdisjoint _ h _ (by simp) rfl) (List.nodup_cons.1 hnotafter).1
  · unfold State.imageStanding Descriptor.standing
    cases (imageDescriptor img w).enable with
    | false => simp
    | true =>
      simp only [if_true, Bool.true_eq_false, false_iff]
      split <;> simp

/-! ### The events in their order (R42, R168, R187) -/

theorem EventUnit.captures_append (e : EventUnit) (fs gs : List EventFields) (t : BitVec 32) (loading : Bool) (v : BitVec 2) :
    e.captures (fs ++ gs) t loading v = (e.captures fs t loading v).captures gs t loading v := List.foldl_append

theorem State.recordDefaultedTimes_eq (s : State) (n : Nat) :
    s.recordDefaultedTimes n =
      { s with en := s.capturesIn s.en (List.replicate n { cause := .configDefaulted }) } := by
  induction n generalizing s with
  | zero => rfl
  | succ n ih =>
    rw [State.recordDefaultedTimes, ih]
    rfl

/-- The CONFIG_WINDOW events of the rejected windows of a list. -/
def State.rejections (s : State) (l : List WinId) : List EventFields :=
  (l.filter s.isRejected).map fun w => { cause := .configWindow, window := some w }

theorem State.events_standing (s : State) (w : WinId) : ((s.win w).standing).events w = s.rejections [w] := by
  unfold State.rejections State.isRejected
  cases h : (s.win w).standing <;> simp [Standing.events, h]

theorem State.rejections_congr {s t : State} {l : List WinId} (h : ∀ w ∈ l, (t.win w).standing = (s.win w).standing) :
    t.rejections l = s.rejections l := by
  unfold State.rejections
  rw [List.filter_congr fun w hw => ?_]
  simp only [State.isRejected, h w hw]

theorem State.takeList_en (s : State) (img : List Byte) {l : List WinId} (hl : l.Nodup) :
    (s.takeList img l).en = s.capturesIn s.en ((s.takeList img l).rejections l) := by
  induction l generalizing s with
  | nil => rfl
  | cons w rest ih =>
    obtain ⟨hw, hrest⟩ := List.nodup_cons.1 hl
    have hstep := s.takeWindow_eq (imageWord img 5) (imageByte img 4) w (imageDescriptor img w)
    set u := s.takeWindow (imageWord img 5) (imageByte img 4) w (imageDescriptor img w) with hu
    have hlist : s.takeList img (w :: rest) = u.takeList img rest := rfl
    have hstanding : (u.win w).standing =
        (imageDescriptor img w).standing (imageWord img 5) (imageByte img 4) s.enabledDescriptors := by
      rw [hu, State.takeWindow_win]
      rfl
    have hfirst : (u.takeList img rest).rejections [w] = u.rejections [w] :=
      State.rejections_congr fun v hv => by
        rw [List.mem_singleton.1 hv, State.takeList_win_of_not_mem _ _ hw]
    have hsplit : (u.takeList img rest).rejections (w :: rest) = u.rejections [w] ++ (u.takeList img rest).rejections rest := by
      rw [← hfirst]
      simp only [State.rejections, ← List.map_append, ← List.filter_append]
      rfl
    have hen : u.en = s.capturesIn s.en (u.rejections [w]) := by
      rw [← State.events_standing, hstanding, hstep]
    rw [hlist, ih u hrest, hsplit, hen, State.capturesIn, State.capturesIn, State.capturesIn, EventUnit.captures_append, hstep]

/-! ### The load as a whole (R188) -/

/-- The state after the windows have been taken, in a load. -/
def State.windowsTaken (s : State) (img : List Byte) : State :=
  (s.recordDefaultedTimes (defaultedParams img).length).takeWindows img

theorem State.windowsTaken_frame (s : State) (img : List Byte) :
    s.windowsTaken img = { s with windows := (s.windowsTaken img).windows, en := (s.windowsTaken img).en } := by
  have hframe := (s.recordDefaultedTimes (defaultedParams img).length).takeList_frame img allWindows
  rw [← State.takeWindows_eq, State.recordDefaultedTimes_eq] at hframe
  rw [State.windowsTaken, State.recordDefaultedTimes_eq]
  exact hframe

theorem State.windowsTaken_win (s : State) (img : List Byte) (w : WinId) : ∃ standing : Standing,
    (s.windowsTaken img).win w = (s.win w).load (imageDescriptor img w) standing (imageByte img 4) ∧
      ((imageDescriptor img w).enable = false ↔ standing = .off) := by
  have hwin := State.takeWindows_win (s.recordDefaultedTimes (defaultedParams img).length) img w
  rw [State.recordDefaultedTimes_eq] at hwin
  rw [State.windowsTaken, State.recordDefaultedTimes_eq]
  exact hwin

/-- The events of a good load, in their order. -/
def State.loadEvents (s : State) (img : List Byte) : List EventFields :=
  List.replicate (defaultedParams img).length { cause := .configDefaulted } ++
    (s.windowsTaken img).rejections allWindows ++
      List.replicate (defaultedFilters img).length { cause := .configDefaulted }

theorem State.windowsTaken_en (s : State) (img : List Byte) :
    (s.windowsTaken img).en = s.capturesIn s.en
      (List.replicate (defaultedParams img).length { cause := .configDefaulted } ++ (s.windowsTaken img).rejections allWindows) := by
  have hen := (s.recordDefaultedTimes (defaultedParams img).length).takeList_en img (by decide : allWindows.Nodup)
  rw [← State.takeWindows_eq] at hen
  rw [State.capturesIn, EventUnit.captures_append]
  unfold State.windowsTaken
  rw [hen, State.recordDefaultedTimes_eq]
  rfl

theorem State.acceptImage_eq (s : State) (img : List Byte) :
    s.acceptImage img =
      { s with
        li := { s.li with line := .listen, rx := .hunt none,
                          joinTimer := .running ((imageParams img).joinInterval * 1024) }
        windows := (s.windowsTaken img).windows
        maps := (s.windowsTaken img).buildMaps.maps
        mu := { s.mu with filters := Vector.ofFn fun i => imageFilter img i.val }
        en := (s.capturesIn s.en (s.loadEvents img)).giveHeld (imageParams img).eventVector
        lp := { s.lp with loadResult := .good, params := imageParams img, defaulted := defaultedSet img } } := by
  have hframe := s.windowsTaken_frame img
  have hen := s.windowsTaken_en img
  unfold State.acceptImage
  change State.endLoad (State.recordDefaultedTimes (State.modMu (State.buildMaps (s.windowsTaken img)) _) _) img = _
  rw [State.recordDefaultedTimes_eq, State.loadEvents]
  generalize (s.windowsTaken img).rejections allWindows = rejected at *
  generalize s.windowsTaken img = t at *
  obtain ⟨ws, e, rfl⟩ : ∃ ws e, t = { s with windows := ws, en := e } := ⟨_, _, hframe⟩
  obtain rfl : e = _ := hen
  simp only [State.capturesIn, EventUnit.captures_append]
  rfl

end Sys2Proof.Machine
end

section
/-!
Quiet changes: what the Follow Unit, the Refresh Contexts, the replica arbiter and the event unit do to a state. They leave
the queues, the roles and the local port as they are and every count in its range, so that an invariant of a step is
carried over all of them at once.
-/

namespace Sys2Proof.Machine

/-! ### Windows and contexts -/

/-- The counts of one window are in their ranges (R77, R93, R134, R171). -/
abbrev Window.InRange (x : Window) : Prop :=
  x.updateCount ≤ 255 ∧ x.retry ≤ 3 ∧ x.behind ≤ 4 ∧ x.claimAttempts ≤ 3

/-- `y` is `x` after a quiet change: same descriptor, standing, ownership and next sequence, the counts still in range. -/
def Window.Quiet (x y : Window) : Prop :=
  y.desc = x.desc ∧ y.standing = x.standing ∧ y.ownership = x.ownership ∧ y.nextSeq = x.nextSeq ∧
    (x.InRange → y.InRange)

/-- The form in which `simp` checks a change of some fields. -/
@[simp] theorem Window.quiet_iff {x y : Window} : x.Quiet y ↔
    y.desc = x.desc ∧ y.standing = x.standing ∧ y.ownership = x.ownership ∧ y.nextSeq = x.nextSeq ∧
      (x.updateCount ≤ 255 ∧ x.retry ≤ 3 ∧ x.behind ≤ 4 ∧ x.claimAttempts ≤ 3 →
        y.updateCount ≤ 255 ∧ y.retry ≤ 3 ∧ y.behind ≤ 4 ∧ y.claimAttempts ≤ 3) := Iff.rfl

theorem Window.Quiet.refl (x : Window) : x.Quiet x := ⟨rfl, rfl, rfl, rfl, id⟩

theorem Window.Quiet.trans {x y z : Window} (hxy : x.Quiet y) (hyz : y.Quiet z) : x.Quiet z := by
  obtain ⟨hd, hst, ho, hn, hr⟩ := hxy
  obtain ⟨hd', hst', ho', hn', hr'⟩ := hyz
  exact ⟨hd'.trans hd, hst'.trans hst, ho'.trans ho, hn'.trans hn, hr' ∘ hr⟩

/-- A deferred list has room for at most 24 records and 1024 bytes (R120). -/
abbrev Binding.InRoom (b : Binding) : Prop :=
  b.deferred.length ≤ 24 ∧ (b.deferred.map fun r => r.data.length).sum ≤ 1024

/-- The context's deferred list, if it has one, is in its room. -/
abbrev RefreshContext.InRoom (c : RefreshContext) : Prop := ∀ b ∈ c.binding, b.InRoom

@[simp] theorem RefreshContext.free_inRoom : RefreshContext.free.InRoom := by simp [RefreshContext.InRoom, RefreshContext.binding]

@[simp] theorem RefreshContext.reserved_inRoom (w : WinId) : (RefreshContext.reserved w).InRoom := by
  simp [RefreshContext.InRoom, RefreshContext.binding]

@[simp] theorem RefreshContext.bound_inRoom_iff (b : Binding) : (RefreshContext.bound b).InRoom ↔ b.InRoom := by
  simp [RefreshContext.InRoom, RefreshContext.binding]

theorem State.ctx_setCtx_eq (s : State) (i j : Fin 2) (c : RefreshContext) :
    (s.setCtx i c).ctx j = if j = i then c else s.ctx j := by
  split
  · next h => rw [h, State.ctx_setCtx]
  · next h => exact s.ctx_setCtx_of_ne c h

theorem State.win_modWin_eq (s : State) (v w : WinId) (f : Window → Window) :
    (s.modWin w f).win v = if v = w then f (s.win w) else s.win v := by
  split
  · next h => rw [h, State.win_modWin]
  · next h => exact s.win_modWin_of_ne f h

/-! ### The relation -/

/-- `t` is `s` after quiet changes. -/
structure State.Quiet (s t : State) : Prop where
  li : t.li = { s.li with tx := t.li.tx }
  slots : t.rh.slots.length ≤ s.rh.slots.length
  pq : t.pq = s.pq
  se : t.se = s.se
  lp : t.lp = s.lp
  maps : t.maps = s.maps
  mu : t.mu = s.mu
  events : s.en.moreEvents ≤ 255 → t.en.moreEvents ≤ 255
  windows : ∀ w : WinId, (s.win w).Quiet (t.win w)
  contexts : (∀ i : Fin 2, (s.ctx i).InRoom) → ∀ i : Fin 2, (t.ctx i).InRoom

namespace State.Quiet

variable {s t u : State}

@[simp] theorem refl (s : State) : s.Quiet s :=
  ⟨rfl, le_rfl, rfl, rfl, rfl, rfl, rfl, id, fun _ => .refl _, id⟩

theorem trans (h : s.Quiet t) (h' : t.Quiet u) : s.Quiet u where
  li := by rw [h'.li, h.li]
  slots := h'.slots.trans h.slots
  pq := h'.pq.trans h.pq
  se := h'.se.trans h.se
  lp := h'.lp.trans h.lp
  maps := h'.maps.trans h.maps
  mu := h'.mu.trans h.mu
  events := h'.events ∘ h.events
  windows w := (h.windows w).trans (h'.windows w)
  contexts := h'.contexts ∘ h.contexts

theorem ownership (h : s.Quiet t) (w : WinId) : (t.win w).ownership = (s.win w).ownership := (h.windows w).2.2.1

theorem role (h : s.Quiet t) (w : WinId) : (t.win w).role = (s.win w).role := by
  simp only [Window.role, (h.windows w).1]

/-! ### The changes of one block -/

/-- A field that no invariant speaks of. -/
theorem of_eq (h : s.Quiet t) (hli : u.li = { t.li with tx := u.li.tx }) (hrh : u.rh.slots = t.rh.slots) (hpq : u.pq = t.pq)
    (hse : u.se = t.se) (hlp : u.lp = t.lp) (hmaps : u.maps = t.maps) (hmu : u.mu = t.mu) (hen : u.en = t.en)
    (hwin : u.windows = t.windows) (hctx : u.contexts = t.contexts) : s.Quiet u :=
  h.trans ⟨hli, by rw [hrh], hpq, hse, hlp, hmaps, hmu, fun he => by rwa [hen],
    fun w => by rw [State.win_eq_of_windows hwin w]; exact .refl _, fun hi i => by
      have : u.ctx i = t.ctx i := by simp only [State.ctx, hctx]
      rw [this]; exact hi i⟩

@[simp] theorem modWin (h : s.Quiet t) {w : WinId} {f : Window → Window} (hf : (t.win w).Quiet (f (t.win w))) :
    s.Quiet (t.modWin w f) :=
  h.trans ⟨rfl, le_rfl, rfl, rfl, rfl, rfl, rfl, id, fun v => by
    rw [State.win_modWin_eq]
    split
    · next hv => rw [hv]; exact hf
    · exact .refl _, id⟩

theorem modEn (h : s.Quiet t) {f : EventUnit → EventUnit} (hf : t.en.moreEvents ≤ 255 → (f t.en).moreEvents ≤ 255) :
    s.Quiet (t.modEn f) :=
  h.trans ⟨rfl, le_rfl, rfl, rfl, rfl, rfl, rfl, hf, fun _ => .refl _, id⟩

theorem setCtx (h : s.Quiet t) (i : Fin 2) {c : RefreshContext} (hc : (∀ j : Fin 2, (t.ctx j).InRoom) → c.InRoom) :
    s.Quiet (t.setCtx i c) :=
  h.trans ⟨rfl, le_rfl, rfl, rfl, rfl, rfl, rfl, id, fun _ => .refl _, fun hi j => by
    rw [State.ctx_setCtx_eq]
    split
    · exact hc hi
    · exact hi j⟩

@[simp] theorem modArb (h : s.Quiet t) (f : Arbiter → Arbiter) : s.Quiet (t.modArb f) :=
  h.of_eq rfl rfl rfl rfl rfl rfl rfl rfl rfl rfl

@[simp] theorem writeReplica (h : s.Quiet t) (a : Nat) (bs : List Byte) : s.Quiet (t.writeReplica a bs) :=
  h.of_eq rfl rfl rfl rfl rfl rfl rfl rfl rfl rfl

@[simp] theorem setWork (h : s.Quiet t) (wk : Option Work) : s.Quiet (t.setWork wk) :=
  h.of_eq rfl rfl rfl rfl rfl rfl rfl rfl rfl rfl

@[simp] theorem makeDue (h : s.Quiet t) (f : OwnerFrame) : s.Quiet (t.makeDue f) :=
  h.of_eq rfl rfl rfl rfl rfl rfl rfl rfl rfl rfl

@[simp] theorem withdrawDue (h : s.Quiet t) (p : OwnerFrame → Bool) : s.Quiet (t.withdrawDue p) :=
  h.of_eq rfl rfl rfl rfl rfl rfl rfl rfl rfl rfl

@[simp] theorem setTx (h : s.Quiet t) (tx : Transmitter) : s.Quiet (t.setTx tx) :=
  h.of_eq rfl rfl rfl rfl rfl rfl rfl rfl rfl rfl

@[simp] theorem withdrawOnLine (h : s.Quiet t) (p : Source → Bool) : s.Quiet (t.withdrawOnLine p) :=
  h.of_eq rfl rfl rfl rfl rfl rfl rfl rfl rfl rfl

@[simp] theorem popHold (h : s.Quiet t) : s.Quiet t.popHold :=
  h.trans ⟨rfl, by simp [State.popHold], rfl, rfl, rfl, rfl, rfl, id, fun _ => .refl _, id⟩

/-- Either branch of a choice. -/
theorem ite {p : Prop} [Decidable p] (ht : s.Quiet t) (hu : s.Quiet u) : s.Quiet (if p then t else u) := by
  split
  · exact ht
  · exact hu

/-- A fold of quiet changes. -/
theorem foldl {α : Type} {f : State → α → State} (h : s.Quiet t) (hf : ∀ (t : State) (a : α), t.Quiet (f t a))
    (l : List α) : s.Quiet (l.foldl f t) := by
  induction l generalizing t with
  | nil => exact h
  | cons a rest ih => exact ih (h.trans (hf t a))

/-! ### Events and the arbiter -/

@[simp] theorem count (h : s.Quiet t) (c : Counter) (n : Nat) : s.Quiet (t.count c n) := h.modEn id

@[simp] theorem occurrence (h : s.Quiet t) (v : BitVec 2) : s.Quiet (t.occurrence v) := h.modEn id

@[simp] theorem recordEvent (h : s.Quiet t) (f : EventFields) : s.Quiet (t.recordEvent f) :=
  h.modEn fun he => by
    unfold EventUnit.capture
    (repeat' split) <;> simp [EventUnit.occur, he]

@[simp] theorem updateNote (h : s.Quiet t) (w : WinId) : s.Quiet (t.updateNote w) := by
  have hnote : s.Quiet (t.modWin w fun y => { y with updated := true, updateCount := min 255 (y.updateCount + 1) }) :=
    h.modWin ⟨rfl, rfl, rfl, rfl, fun ⟨_, hr, hb, hc⟩ => ⟨by simp, hr, hb, hc⟩⟩
  simp only [State.updateNote]
  split <;> simp [hnote]

@[simp] theorem requestIn (h : s.Quiet t) (r : Requester) (n : Nat) : s.Quiet (t.requestIn r n) := h.modArb _

@[simp] theorem requestGrant (h : s.Quiet t) (r : Requester) : s.Quiet (t.requestGrant r) := h.requestIn r _

@[simp] theorem releaseGrant (h : s.Quiet t) : s.Quiet t.releaseGrant := h.modArb _

@[simp] theorem withdrawRequest (h : s.Quiet t) (r : Requester) : s.Quiet (t.withdrawRequest r) := h.modArb _

@[simp] theorem dropPageRead (h : s.Quiet t) : s.Quiet t.dropPageRead := by
  simp only [State.dropPageRead]
  split <;> simp [h]

@[simp] theorem foreign (h : s.Quiet t) : s.Quiet t.foreign := h.count _ _

@[simp] theorem ownConflict (h : s.Quiet t) (w : WinId) (src : Station) : s.Quiet (t.ownConflict w src) :=
  (h.count _ _).recordEvent _

/-! ### The Follow Unit -/

@[simp] theorem contextFreed (h : s.Quiet t) : s.Quiet t.contextFreed := by
  simp only [State.contextFreed]
  refine h.foldl (fun u w => ?_) _
  split <;> simp

@[simp] theorem freeContext (h : s.Quiet t) (i : Fin 2) : s.Quiet (t.freeContext i) :=
  (h.setCtx i fun _ => RefreshContext.free_inRoom).contextFreed

@[simp] theorem withdrawRefreshReq (h : s.Quiet t) (w : WinId) : s.Quiet (t.withdrawRefreshReq w) := h.withdrawOnLine _

@[simp] theorem releaseReservation (h : s.Quiet t) (w : WinId) : s.Quiet (t.releaseReservation w) := by
  simp only [State.releaseReservation]
  split <;> simp [h]

@[simp] theorem releaseBound (h : s.Quiet t) (w : WinId) : s.Quiet (t.releaseBound w) := by
  simp only [State.releaseBound]
  split <;> simp [h]

@[simp] theorem beginDelay (h : s.Quiet t) (w : WinId) : s.Quiet (t.beginDelay w) := by
  simp only [State.beginDelay]
  exact ((h.modWin (by simp)).releaseReservation w).modWin (by simp)

@[simp] theorem enterGap (h : s.Quiet t) (w : WinId) : s.Quiet (t.enterGap w) := by
  simp only [State.enterGap]
  exact (h.modWin (by simp)).beginDelay w

@[simp] theorem enterUnsynced (h : s.Quiet t) (w : WinId) : s.Quiet (t.enterUnsynced w) := by
  simp only [State.enterUnsynced]
  exact (h.modWin (by simp)).beginDelay w

@[simp] theorem enterSynced (h : s.Quiet t) (w : WinId) (e : Word) : s.Quiet (t.enterSynced w e) :=
  h.modWin ⟨rfl, rfl, rfl, rfl, fun ⟨hu, hr, _, hc⟩ => ⟨hu, hr, by simp, hc⟩⟩

@[simp] theorem enterStale (h : s.Quiet t) (w : WinId) : s.Quiet (t.enterStale w) := by
  simp only [State.enterStale]
  exact (h.modWin (by simp)).releaseReservation w

@[simp] theorem bindContext (h : s.Quiet t) (i : Fin 2) (w : WinId) (o : GapOrigin) : s.Quiet (t.bindContext i w o) :=
  (h.setCtx i fun _ => by simp [Binding.fresh, Binding.InRoom]).modWin (by simp +contextual)

theorem bindAlready {w : WinId} (h : s.Quiet t) (hu : t.bindAlready w = some u) : s.Quiet u := by
  simp only [State.bindAlready] at hu
  split at hu
  · rw [← Option.some.inj hu]; simp [h]
  · obtain ⟨i, _, rfl⟩ := Option.map_eq_some_iff.1 hu
    exact h.bindContext i w _

@[simp] theorem requestDelayOver (h : s.Quiet t) (w : WinId) : s.Quiet (t.requestDelayOver w) := by
  have hstopped : s.Quiet (t.modWin w fun x => { x with wait := .stopped }) := h.modWin ⟨rfl, rfl, rfl, rfl, id⟩
  simp only [State.requestDelayOver]
  split
  · exact hstopped.setCtx _ fun _ => RefreshContext.reserved_inRoom w
  · exact hstopped.modWin ⟨rfl, rfl, rfl, rfl, id⟩

@[simp] theorem refreshReqCompleted (h : s.Quiet t) (w : WinId) : s.Quiet (t.refreshReqCompleted w) := by
  simp only [State.refreshReqCompleted]
  split <;> simp [h]

@[simp] theorem leaveFollowed (h : s.Quiet t) (w : WinId) : s.Quiet (t.leaveFollowed w) := by
  have hleft : s.Quiet ((t.modWin w fun x => { x with wait := .stopped, contextWait := false }).releaseReservation w) :=
    (h.modWin ⟨rfl, rfl, rfl, rfl, id⟩).releaseReservation w
  simp only [State.leaveFollowed]
  split
  · exact hleft
  · exact (hleft.modWin ⟨rfl, rfl, rfl, rfl, id⟩).freeContext _

/-- A change of the bound context that keeps its deferred list in room. -/
theorem modBinding (h : s.Quiet t) (w : WinId) {f : Binding → Binding}
    (hf : ∀ b ∈ t.bindingOf w, b.InRoom → (f b).InRoom) : s.Quiet (t.modBinding w f) := by
  simp only [State.modBinding]
  split
  · exact h
  · next i hi =>
    split
    · next b hb =>
      have hof : t.bindingOf w = some b := by simp [State.bindingOf, hi, hb, RefreshContext.binding]
      refine h.setCtx i fun hroom => ?_
      have hbroom := hroom i
      rw [hb] at hbroom
      exact (RefreshContext.bound_inRoom_iff _).2 (hf b hof ((RefreshContext.bound_inRoom_iff _).1 hbroom))
    · exact h
    · exact h

@[simp] theorem writerEffect (h : s.Quiet t) (wk : Work) : s.Quiet (t.writerEffect wk) := by
  cases wk with
  | record => simp +contextual [State.writerEffect, h]
  | page => exact (h.writeReplica _ _).modBinding _ fun _ _ hroom => hroom
  | deferred => exact h.writeReplica _ _

@[simp] theorem endWriting (h : s.Quiet t) (wk : Work) : s.Quiet (t.endWriting wk) := by
  simp only [State.endWriting]
  have hwritten : s.Quiet (if (t.withdrawRequest .writer).granted .writer then
      ((t.withdrawRequest .writer).writerEffect wk).releaseGrant else t.withdrawRequest .writer) :=
    ite ((h.withdrawRequest _).writerEffect wk).releaseGrant (h.withdrawRequest _)
  exact popHold (ite (hwritten.updateNote _) hwritten)

@[simp] theorem settleWriter (h : s.Quiet t) (w : WinId) : s.Quiet (t.settleWriter w) := by
  simp only [State.settleWriter]
  (repeat' split) <;> simp [h]

/-! ### The Refresh Contexts -/

@[simp] theorem completeRefresh (h : s.Quiet t) (w : WinId) : s.Quiet (t.completeRefresh w) := by
  have hended (e : Word) :
      s.Quiet ((((t.enterSynced w e).modWin w fun x => { x with retry := 0, wait := .stopped }).updateNote w).releaseBound w) :=
    (((h.enterSynced w e).modWin ⟨rfl, rfl, rfl, rfl, fun ⟨hu, _, hb, hc⟩ => ⟨hu, by simp, hb, hc⟩⟩).updateNote w).releaseBound
      w
  simp only [State.completeRefresh]
  split
  · exact h
  split
  · exact h
  split
  · exact (hended _).enterGap w
  · exact hended _

@[simp] theorem sizeMismatch (h : s.Quiet t) (w : WinId) (src : Station) (q : Option Word) :
    s.Quiet (t.sizeMismatch w src q) := ((h.recordEvent _).releaseBound w).enterStale w

theorem deferRecord (h : s.Quiet t) {w : WinId} (src : Station) {b : Binding} (a : Attempt) (r : PostRecord)
    (hb : t.bindingOf w = some b) : s.Quiet (t.deferRecord w src b a r) := by
  simp only [State.deferRecord]
  split
  · exact h
  split
  · exact h.sizeMismatch _ _ _
  split
  · refine recordEvent (h.modBinding w fun _ _ hroom => ?_) _
    exact hroom
  split
  · refine recordEvent (h.modBinding w fun _ _ hroom => ?_) _
    exact hroom
  · next hroom =>
    refine h.modBinding w fun b' hb' ⟨hlen, hsum⟩ => ?_
    obtain rfl : b = b' := Option.some.inj (hb.symm.trans hb')
    simp only [Config.deferredRecords, Config.deferredBytes, deferredLength, not_or] at hroom
    simp only [Binding.InRoom, List.length_append, List.length_singleton, List.map_append, List.map_cons, List.map_nil,
      List.sum_append, List.sum_cons, List.sum_nil]
    omega

@[simp] theorem contextRecord (h : s.Quiet t) (w : WinId) (src : Station) (r : PostRecord) :
    s.Quiet (t.contextRecord w src r) := by
  simp only [State.contextRecord]
  split
  · exact h
  · next b hb =>
    split
    · exact h
    · split
      · exact h
      · exact h.deferRecord src _ r hb

@[simp] theorem seqBreak (h : s.Quiet t) (w : WinId) (src : Station) : s.Quiet (t.seqBreak w src) :=
  (h.enterGap w).recordEvent _

@[simp] theorem behindResult (h : s.Quiet t) (w : WinId) (src : Station) (q : Word) (adopted : Bool) :
    s.Quiet (t.behindResult w src q adopted) := by
  simp only [State.behindResult]
  split
  · exact h.seqBreak _ _
  split
  · next hb =>
    have hb' : (t.win w).behind + 1 < 4 := hb
    exact h.modWin ⟨rfl, rfl, rfl, rfl, fun ⟨hu, hr, _, hc⟩ => ⟨hu, hr, by simp only; omega, hc⟩⟩
  · exact ((h.modWin (by simp +contextual [Config.behindLimit])).enterUnsynced w).recordEvent _

@[simp] theorem takeRecords (h : s.Quiet t) (w : WinId) (src : Station) (applied adopted : Bool) (rs : List PostRecord) :
    s.Quiet (t.takeRecords w src applied adopted rs) := by
  induction rs generalizing t with
  | nil => simp only [State.takeRecords]; split <;> simp [h]
  | cons r rest ih => simp only [State.takeRecords]; (repeat' split) <;> simp [h, ih]

@[simp] theorem takeMark (h : s.Quiet t) (w : WinId) (src : Station) (last : Word) (adopted : Bool) :
    s.Quiet (t.takeMark w src last adopted) := by
  simp only [State.takeMark]
  (repeat' split) <;> simp [h]

@[simp] theorem suppress (h : s.Quiet t) (w : WinId) (n : Byte) : s.Quiet (t.suppress w n) := by
  have hbind : s.Quiet ((t.bindAlready w).getD t) := by
    cases hb : t.bindAlready w with
    | none => exact h
    | some u => exact h.bindAlready hb
  simp only [State.suppress]
  (repeat' split) <;> simp [h, hbind]

@[simp] theorem takeBegin (h : s.Quiet t) (w : WinId) (src : Station) (id : Byte) (sn : Word) (n : Byte) :
    s.Quiet (t.takeBegin w src id sn n) := by
  simp only [State.takeBegin]
  split
  · exact h
  split
  · exact h.sizeMismatch _ _ _
  · exact (h.modBinding w fun _ _ _ => by simp [Binding.InRoom]).modWin (by simp +contextual)

@[simp] theorem joinSweep (h : s.Quiet t) (w : WinId) (src : Station) (id : Byte) (sn : Word) (n : Byte) :
    s.Quiet (t.joinSweep w src id sn n) := by
  simp only [State.joinSweep]
  split
  · exact h
  split
  · next u hu => exact (h.bindAlready hu).takeBegin _ _ _ _ _
  · split <;> simp [h]

@[simp] theorem followBegin (h : s.Quiet t) (w : WinId) (src : Station) (id : Byte) (sn : Word) (n : Byte) (o : Origin) :
    s.Quiet (t.followBegin w src id sn n o) := by
  simp only [State.followBegin]
  (repeat' split) <;> simp [h]

@[simp] theorem takePage (h : s.Quiet t) (w : WinId) (src : Station) (id p : Byte) (d : List Byte) :
    s.Quiet (t.takePage w src id p d) := by
  simp only [State.takePage]
  split
  · exact h
  split
  · exact ((h.modWin ⟨rfl, rfl, rfl, rfl, fun hr => hr⟩).setWork _).requestGrant _
  · exact h

@[simp] theorem applyDeferred (h : s.Quiet t) (w : WinId) (rs : List PostRecord) : s.Quiet (t.applyDeferred w rs) := by
  cases rs <;> simp [State.applyDeferred, h]

/-! ### Claims, marks and other flags of a window -/

@[simp] theorem adopt (h : s.Quiet t) (w : WinId) (named : Station) (g : Byte) : s.Quiet (t.adopt w named g) :=
  h.modWin ⟨rfl, rfl, rfl, rfl, fun hr => hr⟩

@[simp] theorem restartClaim (h : s.Quiet t) (w : WinId) (src : Station) : s.Quiet (t.restartClaim w src) := by
  simp only [State.restartClaim]
  split
  · exact h.modWin ⟨rfl, rfl, rfl, rfl, fun hr => hr⟩
  · exact h

@[simp] theorem withdrawOwnerFrames (h : s.Quiet t) (p : Source → Bool) : s.Quiet (t.withdrawOwnerFrames p) :=
  (h.withdrawDue _).withdrawOnLine p

@[simp] theorem settleGrants (h : s.Quiet t) : s.Quiet t.settleGrants := by
  simp only [State.settleGrants]
  refine h.foldl (fun u w => ?_) _
  split <;> simp

@[simp] theorem exitClaiming (h : s.Quiet t) (w : WinId) : s.Quiet (t.exitClaiming w) := by
  simp only [State.exitClaiming]
  split
  · exact (h.modWin ⟨rfl, rfl, rfl, rfl, fun ⟨hu, hr, hb, _⟩ => ⟨hu, hr, hb, by simp⟩⟩).withdrawOwnerFrames _
  · exact h

@[simp] theorem claimCompleted (h : s.Quiet t) (w : WinId) : s.Quiet (t.claimCompleted w) := by
  simp only [State.claimCompleted]
  split
  · exact (h.withdrawDue _).modWin ⟨rfl, rfl, rfl, rfl, fun hr => hr⟩
  · exact h.withdrawDue _

@[simp] theorem denyCompleted (h : s.Quiet t) (w : WinId) (target : Station) : s.Quiet (t.denyCompleted w target) :=
  h.withdrawDue _

@[simp] theorem checkNextSeq (h : s.Quiet t) (w : WinId) (src : Station) (q : Word) : s.Quiet (t.checkNextSeq w src q) := by
  simp only [State.checkNextSeq]
  split <;> simp [h]

@[simp] theorem restartMark (h : s.Quiet t) (w : WinId) : s.Quiet (t.restartMark w) := by
  simp only [State.restartMark]
  split
  · exact h.modWin ⟨rfl, rfl, rfl, rfl, fun hr => hr⟩
  · exact h

@[simp] theorem markCompleted (h : s.Quiet t) (w : WinId) : s.Quiet (t.markCompleted w) := by
  simp only [State.markCompleted]
  split
  · exact (h.modWin ⟨rfl, rfl, rfl, rfl, fun hr => hr⟩).restartMark w
  · exact h

@[simp] theorem markLosers (h : s.Quiet t) : s.Quiet t.markLosers := by
  simp only [State.markLosers]
  refine h.foldl (fun u w => ?_) _
  split <;> simp

@[simp] theorem clearUpdates (h : s.Quiet t) (set : Word) : s.Quiet (t.clearUpdates set) := by
  simp only [State.clearUpdates]
  refine h.foldl (fun u w => ?_) _
  split <;> simp

@[simp] theorem restartContext (h : s.Quiet t) (i : Fin 2) : s.Quiet (t.restartContext i) := by
  simp only [State.restartContext]
  split <;> simp [h]

theorem startWindow (s : State) (w : WinId) : s.Quiet (s.startWindow w) := by
  simp only [State.startWindow]
  (repeat' split)
  · exact refl s
  · exact (refl s).modWin ⟨rfl, rfl, rfl, rfl, fun hr => hr⟩
  · exact (refl s).modWin ⟨rfl, rfl, rfl, rfl, fun hr => hr⟩
  · exact refl s

end State.Quiet

end Sys2Proof.Machine
end

section
/-!
What every step keeps (R2, R40, R59, R100, R120, R126 and the counts' rules), as one relation between a state and the state
after some operations: the counts stay in their ranges, the roles hold, and the lists stay in their room. A taken local
write is held to its room for the windows of a set `P` only, so that an operation that refuses a write at its end can be cut
at the places between.
-/

namespace Sys2Proof.Machine

/-! ### The invariants block by block -/

/-- R40 and R126 at one window. -/
abbrev Window.RoleHolds (x : Window) : Prop :=
  (x.role = some .own → x.ownership = .owner) ∧ (x.role = some .follow → x.ownership = .follower)

/-- The window's role leaves its ownership state free. -/
def Window.Shared (x : Window) : Prop := x.RoleHolds → x.role ≠ some .own ∧ x.role ≠ some .follow

theorem Window.shared_of_share {x : Window} (h : x.role = some .share) : x.Shared := fun _ => by simp [h]

theorem Window.shared_of_claiming {x : Window} (h : x.ownership = .claiming) : x.Shared := fun ⟨ho, hf⟩ =>
  ⟨fun hr => by simp [h] at ho; exact ho hr, fun hr => by simp [h] at hf; exact hf hr⟩

theorem Window.shared_of_granting {x : Window} (h : x.ownership = .granting) : x.Shared := fun ⟨ho, hf⟩ =>
  ⟨fun hr => by simp [h] at ho; exact ho hr, fun hr => by simp [h] at hf; exact hf hr⟩

/-- The line's counts are in their ranges (R2, R15). -/
abbrev LineInterface.InRange (li : LineInterface) : Prop := li.faults ≤ 16 ∧ li.recessiveRun ≤ 48 ∧ li.dominantRun ≤ 32

/-- The message queues are in their room (R154, R160). -/
abbrev MessageUnit.InRoom (u : MessageUnit) : Prop := u.outQueue.length ≤ 4 ∧ u.inFifo.length ≤ 8

/-- The post queue is in its room (R59). -/
abbrev PostQueue.InRoom (q : PostQueue) : Prop :=
  q.entries.length ≤ 32 ∧ postBytes q.entries ≤ 2048 ∧ ∀ e ∈ q.entries, e.data.length ≤ 64

/-- No window is twice in the Sweep Engine (R100). -/
abbrev SweepEngine.InRoom (e : SweepEngine) : Prop :=
  (e.queue.map (·.1)).Nodup ∧ ∀ c ∈ e.current, ∀ p ∈ e.queue, p.1 ≠ c.window

/-- The room an allowed write was given (R62, R65). -/
abbrev State.roomFor (s : State) (w : WinId) (c : LocalCycle) : Prop :=
  (s.pq.mergeHold = true ∧ s.pq.wouldMerge w (s.win w).nextSeq (s.windowOffset w c) c.bytes.length = true ∧
      postBytes s.pq.entries + s.pq.growth (s.windowOffset w c) c.bytes.length ≤ 2048) ∨
    (s.pq.entries.length < 32 ∧ postBytes s.pq.entries + c.bytes.length ≤ 2048)

/-- No write is taken before the load has ended (R44, R183). -/
abbrev State.NothingTakenInLoad (s : State) : Prop :=
  (s.lp.inReset = true → s.lp.load = .none) ∧
    (s.lp.inReset = true ∨ s.lp.load ≠ .none → s.maps.localMap = [] ∧ ∀ c ∈ s.lp.cycle, c.stage.takenFor = none)

/-- A taken write of a window in `P` is of an OWNER and has its room. -/
def State.TakenRoom (P : WinId → Prop) (s : State) : Prop :=
  (∀ c ∈ s.lp.cycle, ∀ w ∈ c.stage.takenFor, P w →
    (s.win w).ownership = .owner ∧ (c.stage = .allowedWrite w → s.roomFor w c)) ∧ s.NothingTakenInLoad

/-- Every window. -/
abbrev EveryWindow : WinId → Prop := fun _ => True

theorem takenWritesHaveRoom_iff (s : State) : TakenWritesHaveRoom s ↔ s.TakenRoom EveryWindow := by
  simp [State.TakenRoom]

theorem queue_length_le {e : SweepEngine} (h : e.InRoom) : e.queue.length ≤ 16 := by
  simpa using h.1.length_le_card

theorem listsBounded_iff (s : State) :
    ListsBounded s ↔ s.pq.InRoom ∧ s.se.InRoom ∧ ∀ i : Fin 2, (s.ctx i).InRoom := by
  constructor
  · rintro ⟨h1, h2, h3, -, h5, h6, h7⟩
    exact ⟨⟨h1, h2, h3⟩, ⟨h5, h6⟩, h7⟩
  · rintro ⟨⟨h1, h2, h3⟩, hse, h7⟩
    exact ⟨h1, h2, h3, queue_length_le hse, hse.1, hse.2, h7⟩

/-! ### The relation -/

/-- From `s` to `t` the invariants are kept, with the taken writes of `P` in their room before and those of `Q` after. -/
structure State.Keeps (P Q : WinId → Prop) (s t : State) : Prop where
  counts : CountsBounded s → CountsBounded t
  roles : RolesHold s → UnloadedUntilLoad s → RolesHold t ∧ UnloadedUntilLoad t
  room : ListsBounded s → s.TakenRoom P → ListsBounded t ∧ t.TakenRoom Q

namespace State.Keeps

variable {P Q R : WinId → Prop} {s t u : State}

theorem refl (s : State) : s.Keeps P P s := ⟨id, fun h h' => ⟨h, h'⟩, fun h h' => ⟨h, h'⟩⟩

theorem trans (h : s.Keeps P Q t) (h' : t.Keeps Q R u) : s.Keeps P R u :=
  ⟨h'.counts ∘ h.counts, fun hr hu => h'.roles (h.roles hr hu).1 (h.roles hr hu).2,
    fun hl ht => h'.room (h.room hl ht).1 (h.room hl ht).2⟩

/-- Fewer windows' writes are held to their room. -/
theorem weaken (h : s.Keeps P Q t) (hRQ : ∀ w, R w → Q w) : s.Keeps P R t :=
  ⟨h.counts, h.roles, fun hl ht =>
    ⟨(h.room hl ht).1, fun c hc w hw hR => (h.room hl ht).2.1 c hc w hw (hRQ w hR), (h.room hl ht).2.2⟩⟩

/-- With no write of a window outside `Q` in progress, every taken write is held to its room again. -/
theorem restore (h : s.Keeps P Q t) (hcycle : ∀ c ∈ t.lp.cycle, ∀ w ∈ c.stage.takenFor, Q w) : s.Keeps P EveryWindow t :=
  ⟨h.counts, h.roles, fun hl ht =>
    ⟨(h.room hl ht).1, fun c hc w hw _ => (h.room hl ht).2.1 c hc w hw (hcycle c hc w hw), (h.room hl ht).2.2⟩⟩

theorem ite {p : Prop} [Decidable p] (ht : s.Keeps P Q t) (hu : s.Keeps P Q u) : s.Keeps P Q (if p then t else u) := by
  split
  · exact ht
  · exact hu

/-! ### Quiet changes -/

theorem roomFor_congr {w : WinId} {c : LocalCycle} (hpq : t.pq = s.pq) (hseq : (t.win w).nextSeq = (s.win w).nextSeq)
    (hdesc : (t.win w).desc = (s.win w).desc) : t.roomFor w c ↔ s.roomFor w c := by
  simp only [State.roomFor, State.windowOffset, hpq, hseq, hdesc]

theorem of_quiet (h : s.Quiet t) : s.Keeps P P t where
  counts := fun ⟨hslots, hout, hin, hev, hfaults, hrec, hdom, hwin⟩ => by
    refine ⟨h.slots.trans hslots, by rw [h.mu]; exact hout, by rw [h.mu]; exact hin, h.events hev, ?_, ?_, ?_, fun w =>
      (h.windows w).2.2.2.2 (hwin w)⟩ <;> rw [h.li] <;> assumption
  roles := fun hr ⟨hreset, hload⟩ => by
    refine ⟨fun w => ?_, by rw [h.lp]; exact hreset, fun hl w => ?_⟩
    · rw [h.role, h.ownership]; exact hr w
    · rw [(h.windows w).2.1]; exact hload (by rwa [h.lp] at hl) w
  room := fun hl ⟨htaken, hno⟩ => by
    rw [listsBounded_iff] at hl ⊢
    obtain ⟨hpq, hse, hctx⟩ := hl
    refine ⟨⟨by rw [h.pq]; exact hpq, by rw [h.se]; exact hse, h.contexts hctx⟩, fun c hc w hw hP => ?_, ?_⟩
    · rw [h.lp] at hc
      obtain ⟨-, -, howner, hseq, -⟩ := h.windows w
      have hdesc := (h.windows w).1
      rw [howner, roomFor_congr h.pq hseq hdesc]
      exact htaken c hc w hw hP
    · simpa only [State.NothingTakenInLoad, h.lp, h.maps] using hno

theorem quiet (h : s.Keeps P Q t) (h' : t.Quiet u) : s.Keeps P Q u := h.trans (of_quiet h')

/-! ### The changes of one block -/

theorem modLi (h : s.Keeps P Q t) {f : LineInterface → LineInterface} (hf : t.li.InRange → (f t.li).InRange) :
    s.Keeps P Q (t.modLi f) :=
  h.trans ⟨fun ⟨hslots, hout, hin, hev, hfaults, hrec, hdom, hwin⟩ =>
    have ⟨hfaults', hrec', hdom'⟩ := hf ⟨hfaults, hrec, hdom⟩
    ⟨hslots, hout, hin, hev, hfaults', hrec', hdom', hwin⟩, fun hr hu => ⟨hr, hu⟩, fun hl ht => ⟨hl, ht⟩⟩

theorem modMu (h : s.Keeps P Q t) {f : MessageUnit → MessageUnit} (hf : t.mu.InRoom → (f t.mu).InRoom) :
    s.Keeps P Q (t.modMu f) :=
  h.trans ⟨fun ⟨hslots, hout, hin, hrest⟩ => ⟨hslots, (hf ⟨hout, hin⟩).1, (hf ⟨hout, hin⟩).2, hrest⟩,
    fun hr hu => ⟨hr, hu⟩, fun hl ht => ⟨hl, ht⟩⟩

theorem modEn (h : s.Keeps P Q t) {f : EventUnit → EventUnit} (hf : t.en.moreEvents ≤ 255 → (f t.en).moreEvents ≤ 255) :
    s.Keeps P Q (t.modEn f) := h.quiet ((Quiet.refl t).modEn hf)

theorem modSe (h : s.Keeps P Q t) {f : SweepEngine → SweepEngine} (hf : t.se.InRoom → (f t.se).InRoom) :
    s.Keeps P Q (t.modSe f) :=
  h.trans ⟨id, fun hr hu => ⟨hr, hu⟩, fun hl ht => by
    rw [listsBounded_iff] at hl ⊢
    exact ⟨⟨hl.1, hf hl.2.1, hl.2.2⟩, ht⟩⟩

/-- The hold with other slots. -/
theorem withHold (h : s.Keeps P Q t) {rh : ReceiveHold} (hrh : t.rh.slots.length ≤ 3 → rh.slots.length ≤ 3) :
    s.Keeps P Q { t with rh := rh } :=
  h.trans ⟨fun ⟨hslots, hrest⟩ => ⟨hrh hslots, hrest⟩, fun hr hu => ⟨hr, hu⟩, fun hl ht => ⟨hl, ht⟩⟩

/-- A window changed in its ownership state, with its role leaving that free, and its taken writes not held to their room
unless it stays OWNER at its next sequence. -/
theorem modWin (h : s.Keeps P Q t) {w : WinId} {f : Window → Window} (hdesc : (f (t.win w)).desc = (t.win w).desc)
    (hstanding : (f (t.win w)).standing = (t.win w).standing) (hrange : (t.win w).InRange → (f (t.win w)).InRange)
    (hrole : (t.win w).RoleHolds → (f (t.win w)).RoleHolds)
    (howner : Q w → (t.win w).ownership = .owner →
      (f (t.win w)).ownership = .owner ∧ (f (t.win w)).nextSeq = (t.win w).nextSeq) : s.Keeps P Q (t.modWin w f) :=
  h.trans <| by
    refine ⟨fun ⟨hslots, hout, hin, hev, hfaults, hrec, hdom, hwin⟩ => ⟨hslots, hout, hin, hev, hfaults, hrec, hdom, fun v => ?_⟩,
      fun hr ⟨hreset, hload⟩ => ⟨fun v => ?_, hreset, fun hl v => ?_⟩, fun hl ⟨htaken, hno⟩ => ⟨hl, fun c hc v hv hQ => ?_, hno⟩⟩
    · rw [State.win_modWin_eq]
      split
      · exact hrange (hwin w)
      · exact hwin v
    · rw [State.win_modWin_eq]
      split
      · exact hrole (hr w)
      · exact hr v
    · rw [State.win_modWin_eq]
      split
      · rw [hstanding]; exact hload hl w
      · exact hload hl v
    · obtain ⟨hown, hroom⟩ := htaken c hc v hv hQ
      rcases eq_or_ne v w with rfl | hne
      · obtain ⟨hown', hseq⟩ := howner hQ hown
        have hcongr : (t.modWin v f).roomFor v c ↔ t.roomFor v c :=
          roomFor_congr rfl (by simpa using hseq) (by simpa using hdesc)
        rw [State.win_modWin, hcongr]
        exact ⟨hown', hroom⟩
      · have hwin := t.win_modWin_of_ne f hne
        have hcongr : (t.modWin w f).roomFor v c ↔ t.roomFor v c := roomFor_congr rfl (by rw [hwin]) (by rw [hwin])
        rw [hwin, hcongr]
        exact ⟨hown, hroom⟩

/-- The local port changed, the load apart. The taken write of the new cycle, if there is one, has its room. -/
theorem modLp (h : s.Keeps P Q t) {f : LocalPort → LocalPort} (hreset : (f t.lp).inReset = t.lp.inReset)
    (hload : (f t.lp).load = t.lp.load)
    (hcycle : ListsBounded t → t.TakenRoom Q → ∀ c ∈ (f t.lp).cycle, ∀ w ∈ c.stage.takenFor,
      (R w → (t.win w).ownership = .owner ∧ (c.stage = .allowedWrite w → t.roomFor w c)) ∧
        ¬(t.lp.inReset = true ∨ t.lp.load ≠ .none)) : s.Keeps P R (t.modLp f) :=
  h.trans <| by
    refine ⟨id, fun hr hu => ⟨hr, ?_⟩, fun hl ht => ⟨hl, fun c hc w hw hR => (hcycle hl ht c hc w hw).1 hR, ?_, ?_⟩⟩
    · simpa only [UnloadedUntilLoad, State.modLp_lp, hreset, hload, State.win, State.modLp_windows] using hu
    · simpa only [State.modLp_lp, hreset, hload] using ht.2.1
    · simp only [State.modLp_lp, hreset, hload, State.modLp_maps]
      intro hloading
      refine ⟨(ht.2.2 hloading).1, fun c hc => Option.eq_none_iff_forall_ne_some.2 fun w hw => ?_⟩
      exact (hcycle hl ht c hc w hw).2 hloading

/-- The local port changed, the load and the cycle apart. -/
theorem modLp_of_same_cycle (h : s.Keeps P Q t) {f : LocalPort → LocalPort} (hreset : (f t.lp).inReset = t.lp.inReset)
    (hload : (f t.lp).load = t.lp.load) (hcycle : (f t.lp).cycle = t.lp.cycle) : s.Keeps P Q (t.modLp f) :=
  h.modLp hreset hload fun _ ⟨htaken, hno⟩ c hc w hw => by
    rw [hcycle] at hc
    refine ⟨htaken c hc w hw, fun hloading => ?_⟩
    have := (hno.2 hloading).2 c hc
    simp_all

/-- The local port with no taken write in progress: every taken write, there being none, has its room. -/
theorem modLp_of_not_taken (h : s.Keeps P Q t) {f : LocalPort → LocalPort} (hreset : (f t.lp).inReset = t.lp.inReset)
    (hload : (f t.lp).load = t.lp.load) (hcycle : ∀ c ∈ (f t.lp).cycle, c.stage.takenFor = none) :
    s.Keeps P R (t.modLp f) :=
  h.modLp hreset hload fun _ _ c hc w hw => by simp [hcycle c hc] at hw

theorem setWait (h : s.Keeps P Q t) (b : Bool) : s.Keeps P Q (t.setWait b) := h.modLp_of_same_cycle rfl rfl rfl

theorem drive (h : s.Keeps P Q t) (d : DataOut) : s.Keeps P Q (t.drive d) := h.modLp_of_same_cycle rfl rfl rfl

theorem setStage_of_not_taken (h : s.Keeps P Q t) (c : LocalCycle) {stage : Stage} (hstage : stage.takenFor = none) :
    s.Keeps P R (t.setStage c stage) :=
  h.modLp_of_not_taken rfl rfl fun c' hc' => by
    obtain rfl : { c with stage := stage } = c' := Option.some.inj hc'
    exact hstage

theorem beginCycle_of_not_taken (h : s.Keeps P Q t) (write : Bool) (a : BitVec 16) (be : BitVec 2) (data : Word)
    {stage : Stage} (hstage : stage.takenFor = none) : s.Keeps P R (t.beginCycle write a be data stage) :=
  h.modLp_of_not_taken rfl rfl fun c' hc' => by
    obtain rfl : { write := write, a := a, be := be, data := data, stage := stage } = c' := Option.some.inj hc'
    exact hstage

/-- Another post queue in its room, in which the taken writes still have theirs. -/
theorem withQueue (h : s.Keeps P Q t) {q : PostQueue} (hroom : ListsBounded t → t.TakenRoom Q → q.InRoom)
    (htaken : ListsBounded t → ∀ c ∈ t.lp.cycle, ∀ w : WinId, c.stage = .allowedWrite w → R w →
      t.roomFor w c → ({ t with pq := q } : State).roomFor w c) (hRQ : ∀ w, R w → Q w) :
    s.Keeps P R { t with pq := q } :=
  h.trans ⟨id, fun hr hu => ⟨hr, hu⟩, fun hl ht => by
    have hl' := hl
    rw [listsBounded_iff] at hl ⊢
    refine ⟨⟨hroom hl' ht, hl.2.1, hl.2.2⟩, fun c hc w hw hR => ?_, ht.2⟩
    obtain ⟨hown, hallowed⟩ := ht.1 c hc w hw (hRQ w hR)
    exact ⟨hown, fun hstage => htaken hl' c hc w hstage hR (hallowed hstage)⟩⟩

end State.Keeps

end Sys2Proof.Machine
end

section
/-!
The operations that are not quiet keep the invariants: the sweep queue, the post queue and its writes, the changes of
ownership, and the messages.
-/

namespace Sys2Proof.Machine

/-! ### The Sweep Engine (R100, R104) -/

namespace SweepEngine

variable {e : SweepEngine} {w : WinId}

theorem promote_inRoom (h : e.InRoom) : e.promote.InRoom := by
  unfold SweepEngine.promote
  split
  · next w origin rest _ hqueue =>
    obtain ⟨hnodup, -⟩ := h
    rw [hqueue, List.map_cons, List.nodup_cons] at hnodup
    refine ⟨hnodup.2, fun c hc p hp => ?_⟩
    obtain rfl : Sweep.fresh w origin = c := Option.some.inj hc
    intro hpw
    exact hnodup.1 (List.mem_map.2 ⟨p, hp, hpw⟩)
  · exact h
  · exact h

theorem not_mem_queue_of_not_queued (h : ¬e.queued w = true) : w ∉ e.queue.map (·.1) := by
  simpa [SweepEngine.queued] using h

theorem ne_window_of_currentOf_none (h : e.currentOf w = none) : ∀ c ∈ e.current, c.window ≠ w := by
  intro c hc
  simpa [SweepEngine.currentOf, Option.filter_eq_none_iff, Option.mem_def.1 hc] using h

theorem currentOf_eq_some_iff {c : Sweep} : e.currentOf w = some c ↔ e.current = some c ∧ c.window = w := by
  simp [SweepEngine.currentOf, Option.filter_eq_some_iff]

/-- An entry of a window that is nowhere in the engine can join the queue. -/
theorem append_inRoom (h : e.InRoom) (origin : Origin) (hqueue : w ∉ e.queue.map (·.1))
    (hcurrent : ∀ c ∈ e.current, c.window ≠ w) : ({ e with queue := e.queue ++ [(w, origin)] } : SweepEngine).InRoom := by
  refine ⟨?_, fun c hc p hp => ?_⟩
  · rw [List.map_append]
    refine List.nodup_append.2 ⟨h.1, by simp, fun a ha b hb => ?_⟩
    obtain rfl : b = w := by simpa using hb
    rintro rfl
    exact hqueue ha
  · rcases List.mem_append.1 hp with hp | hp
    · exact h.2 c hc p hp
    · obtain rfl : p = (w, origin) := by simpa using hp
      exact (hcurrent c hc).symm

/-- The current sweep replaced by one of the same window. -/
theorem current_inRoom (h : e.InRoom) {c c' : Sweep} (hc : e.current = some c) (hwindow : c'.window = c.window) (n : Byte) :
    ({ e with current := some c', idCounter := n } : SweepEngine).InRoom :=
  ⟨h.1, fun d hd p hp => by
    obtain rfl : c' = d := Option.some.inj hd
    rw [hwindow]
    exact h.2 c hc p hp⟩

theorem add_inRoom (h : e.InRoom) (origin : Origin) (hcurrent : e.currentOf w = none) (hqueued : ¬e.queued w = true) :
    (e.add w origin).InRoom :=
  promote_inRoom (append_inRoom h origin (not_mem_queue_of_not_queued hqueued) (ne_window_of_currentOf_none hcurrent))

theorem request_inRoom (h : e.InRoom) (w : WinId) : (e.request w).InRoom := by
  unfold SweepEngine.request
  split
  · next c hc =>
    split
    · exact current_inRoom h (currentOf_eq_some_iff.1 hc).1 (by rfl) _
    · exact h
  · next hc =>
    split
    · exact h
    · next hq => exact add_inRoom h _ hc hq

theorem start_inRoom (h : e.InRoom) (w : WinId) : (e.start w).InRoom := by
  unfold SweepEngine.start
  split
  · next c hc => exact current_inRoom h (currentOf_eq_some_iff.1 hc).1 (by rfl) _
  · next hc =>
    split
    · have hmap : (fun p : WinId × Origin => (if p.1 = w then (w, Origin.start) else p).1) = Prod.fst := by
        funext p
        split
        · next hp => exact hp.symm
        · rfl
      refine ⟨?_, fun c hc' p hp => ?_⟩
      · simpa only [List.map_map, Function.comp_def, hmap] using h.1
      · obtain ⟨p', hp', rfl⟩ := List.mem_map.1 hp
        rw [congrFun hmap p']
        exact h.2 c hc' p' hp'
    · next hq => exact add_inRoom h _ hc hq

theorem ask_inRoom (h : e.InRoom) (w : WinId) (origin : Origin) : (e.ask w origin).InRoom := by
  unfold SweepEngine.ask
  split
  · next c hc =>
    split
    · exact current_inRoom h (currentOf_eq_some_iff.1 hc).1 (by rfl) _
    · exact h
  · next hc =>
    split
    · exact h
    · next hq => exact add_inRoom h _ hc hq

theorem abandon_inRoom (h : e.InRoom) (w : WinId) (onLine : Bool) : (e.abandon w onLine).InRoom := by
  unfold SweepEngine.abandon
  split
  · next c hc =>
    have hcurrent := (currentOf_eq_some_iff.1 hc).1
    split
    · split
      · exact current_inRoom h hcurrent (by rfl) _
      · exact promote_inRoom ⟨h.1, by simp⟩
    · exact current_inRoom h hcurrent (by rfl) _
    · exact current_inRoom h hcurrent (by rfl) _
  · exact ⟨h.1.sublist (List.filter_sublist.map _), fun c hc p hp => h.2 c hc p (List.mem_of_mem_filter hp)⟩

theorem beginCompleted_inRoom (h : e.InRoom) (w : WinId) (i : Byte) (sn : Word) : (e.beginCompleted w i sn).InRoom := by
  unfold SweepEngine.beginCompleted
  split
  · exact h
  · next c hc => exact current_inRoom h (currentOf_eq_some_iff.1 hc).1 (by rfl) _

theorem dataCompleted_inRoom (h : e.InRoom) (w : WinId) (pages : Nat) : (e.dataCompleted w pages).InRoom := by
  unfold SweepEngine.dataCompleted
  split
  · exact h
  · next c hc => exact current_inRoom h (currentOf_eq_some_iff.1 hc).1 (by rfl) _

end SweepEngine

namespace State.Keeps

variable {P Q : WinId → Prop} {s t u : State}

theorem abandonSweep (h : s.Keeps P Q t) (w : WinId) : s.Keeps P Q (t.abandonSweep w) :=
  h.modSe fun he => SweepEngine.abandon_inRoom he _ _

/-- A cleared sweep's window can be queued again, since it is not in the queue while it is current (R108). -/
theorem clearSweep (h : s.Keeps P Q t) {c : Sweep} (hc : t.se.current = some c) : s.Keeps P Q (t.clearSweep c) := by
  simp only [State.clearSweep]
  refine h.modSe fun he => SweepEngine.promote_inRoom ?_
  have hcleared : ({ t.se with current := none } : SweepEngine).InRoom := ⟨he.1, by simp⟩
  split
  · refine SweepEngine.append_inRoom hcleared _ (fun hmem => ?_) (by simp)
    obtain ⟨p, hp, hpw⟩ := List.mem_map.1 hmem
    exact he.2 c hc p hp hpw
  · exact hcleared

theorem sweepEndCompleted (h : s.Keeps P Q t) (w : WinId) : s.Keeps P Q (t.sweepEndCompleted w) := by
  unfold State.sweepEndCompleted
  split
  · exact h
  · next c hc => exact h.clearSweep (SweepEngine.currentOf_eq_some_iff.1 hc).1

theorem sweepFrameLost (h : s.Keeps P Q t) (src : Source) : s.Keeps P Q (t.sweepFrameLost src) := by
  unfold State.sweepFrameLost
  split
  · split
    · next c hc =>
      split
      · exact h.clearSweep (SweepEngine.currentOf_eq_some_iff.1 hc).1
      · exact h
    · exact h
  all_goals exact h

theorem foldl {α : Type} {f : State → α → State} (h : s.Keeps P Q t) (hf : ∀ (t : State) (a : α), t.Keeps Q Q (f t a))
    (l : List α) : s.Keeps P Q (l.foldl f t) := by
  induction l generalizing t with
  | nil => exact h
  | cons a rest ih => exact ih (h.trans (hf t a))

theorem queueStartSweeps (h : s.Keeps P Q t) : s.Keeps P Q t.queueStartSweeps := by
  unfold State.queueStartSweeps
  refine h.foldl (fun u w => ?_) _
  split
  · exact (refl u).modSe fun he => SweepEngine.start_inRoom he w
  · exact refl u

theorem answerRequest (h : s.Keeps P Q t) (w : WinId) (src : Station) (n : Byte) :
    s.Keeps P Q (t.answerRequest w src n) := by
  simp only [State.answerRequest]
  split
  · split
    · exact h.quiet (by simp)
    · exact h.modSe fun he => SweepEngine.request_inRoom he w
  · exact h

/-! ### Messages (R154, R160) -/

theorem acceptMessage (h : s.Keeps P Q t) (m : InMessage) : s.Keeps P Q (t.acceptMessage m) := by
  unfold State.acceptMessage
  split
  · next hroom =>
    have hroom' : t.mu.inFifo.length < 8 := hroom
    have hjoined : s.Keeps P Q (t.modMu fun u => { u with inFifo := u.inFifo ++ [m] }) :=
      h.modMu fun ⟨hout, _⟩ => ⟨hout, by simpa using hroom'⟩
    exact ite (hjoined.quiet (by simp)) hjoined
  · exact h.quiet (by simp)

theorem handleMessage (h : s.Keeps P Q t) (src : Station) (d u k sk : Byte) (p : List Byte) :
    s.Keeps P Q (t.handleMessage src d u k sk p) := by
  unfold State.handleMessage
  exact ite (h.acceptMessage _) h

theorem messageCompleted (h : s.Keeps P Q t) : s.Keeps P Q t.messageCompleted :=
  h.modMu fun ⟨hout, hin⟩ => ⟨by simp only [List.length_tail]; omega, hin⟩

end State.Keeps

/-! ### The post queue (R59, R60, R62) -/

theorem postBytes_append (xs ys : List PostEntry) : postBytes (xs ++ ys) = postBytes xs + postBytes ys := by
  simp [postBytes]

theorem postBytes_singleton (e : PostEntry) : postBytes [e] = e.data.length := by simp [postBytes]

theorem postBytes_le_of_sublist {xs ys : List PostEntry} (h : xs.Sublist ys) : postBytes xs ≤ postBytes ys :=
  (h.map _).sum_le_sum fun _ _ => Nat.zero_le _

theorem PostQueue.dataBytes_eq (q : PostQueue) : q.dataBytes = postBytes q.entries := rfl

/-- A queue with entries left out stays in its room. -/
theorem PostQueue.InRoom.of_sublist {q : PostQueue} (h : q.InRoom) {es : List PostEntry} (hes : es.Sublist q.entries)
    (hold : Bool) : ({ entries := es, mergeHold := hold } : PostQueue).InRoom :=
  ⟨hes.length_le.trans h.1, (postBytes_le_of_sublist hes).trans h.2.1, fun e he => h.2.2 e (hes.subset he)⟩

/-- R60: a queue takes a merge by its tail alone. -/
theorem PostQueue.wouldMerge_iff {q : PostQueue} {w : WinId} {next : Word} {offset n : Nat} :
    q.wouldMerge w next offset n = true ↔ ∃ e, q.entries.getLast? = some e ∧ e.merges w next offset n = true := by
  unfold PostQueue.wouldMerge
  split <;> simp_all

theorem PostEntry.merges_iff {e : PostEntry} {w : WinId} {next : Word} {offset n : Nat} :
    e.merges w next offset n = true ↔ e.window = w ∧ e.sealed = false ∧ e.seq = next - 1 ∧
      (offset ≤ e.offset.toNat + e.data.length ∧ e.offset.toNat ≤ offset + n) ∧
      unionLength offset n e.offset.toNat e.data.length ≤ Config.postBytes := by
  simp [PostEntry.merges, rangesMeet, and_assoc]

/-- The allowed write's room stands when entries go that its merge does not need. -/
theorem State.roomFor_of_sublist {s : State} {w : WinId} {c : LocalCycle} (h : s.roomFor w c) {es : List PostEntry}
    (hes : es.Sublist s.pq.entries)
    (hlast : ∀ e, s.pq.entries.getLast? = some e → e.window = w → e.sealed = false → es.getLast? = some e) :
    ({ s with pq := { s.pq with entries := es } } : State).roomFor w c := by
  have hbytes := postBytes_le_of_sublist hes
  rcases h with ⟨hhold, hmerge, hroom⟩ | ⟨hlength, hroom⟩
  · obtain ⟨e, he, hm⟩ := PostQueue.wouldMerge_iff.1 hmerge
    obtain ⟨hw, hsealed, -⟩ := PostEntry.merges_iff.1 hm
    have he' := hlast e he hw hsealed
    refine .inl ⟨hhold, PostQueue.wouldMerge_iff.2 ⟨e, he', hm⟩, ?_⟩
    simp only [PostQueue.growth, he] at hroom
    simp only [PostQueue.growth, he']
    exact (Nat.add_le_add_right hbytes _).trans hroom
  · exact .inr ⟨hes.length_le.trans_lt hlength, (Nat.add_le_add_right hbytes _).trans hroom⟩

/-- A written union is no longer than the tail and the write together. -/
theorem unionLength_le {a n b m : Nat} (hleft : a ≤ b + m) (hright : b ≤ a + n) : unionLength a n b m ≤ m + n := by
  unfold unionLength
  omega

theorem le_unionLength {a n b m : Nat} : m ≤ unionLength a n b m := by
  unfold unionLength
  omega

theorem PostEntry.length_merge (e : PostEntry) (offset : Nat) (bytes : List Byte) :
    (e.merge offset bytes).data.length = unionLength offset bytes.length e.offset.toNat e.data.length := by
  simp [PostEntry.merge]

theorem accessBytes_length_le (be : BitVec 2) (data : Word) : (accessBytes be data).length ≤ 2 := by
  unfold accessBytes
  split <;> split <;> simp

/-- A write placed as it was allowed leaves the queue in its room (R60, R62). -/
theorem State.placeWrite_inRoom {s : State} {w : WinId} {c : LocalCycle} (hq : s.pq.InRoom) (hroom : s.roomFor w c) :
    (s.placeWrite w (s.windowOffset w c) c.bytes).pq.InRoom := by
  obtain ⟨hlength, hbytes, hdata⟩ := hq
  simp only [State.placeWrite]
  split
  · next hmerge =>
    obtain ⟨e, he, hm⟩ := PostQueue.wouldMerge_iff.1 hmerge
    obtain ⟨-, -, -, ⟨hleft, hright⟩, hunion⟩ := PostEntry.merges_iff.1 hm
    obtain ⟨front, hfront⟩ := List.getLast?_eq_some_iff.1 he
    have hgrown : postBytes front + unionLength (s.windowOffset w c) c.bytes.length e.offset.toNat e.data.length ≤ 2048 := by
      have hle := unionLength_le hleft hright
      have hge := le_unionLength (a := s.windowOffset w c) (n := c.bytes.length) (b := e.offset.toNat) (m := e.data.length)
      have hgrowth : s.pq.growth (s.windowOffset w c) c.bytes.length =
          unionLength (s.windowOffset w c) c.bytes.length e.offset.toNat e.data.length - e.data.length := by
        simp only [PostQueue.growth, he]
      simp only [State.roomFor, hgrowth, hfront, postBytes_append, postBytes_singleton] at hroom
      omega
    have hentries : (s.pq.mergeTail (s.windowOffset w c) c.bytes).entries =
        front ++ [e.merge (s.windowOffset w c) c.bytes] := by
      simp [PostQueue.mergeTail, hfront]
    simp only [PostQueue.InRoom, hentries, postBytes_append, postBytes_singleton, PostEntry.length_merge]
    rw [hfront] at hlength hdata
    refine ⟨by simpa using hlength, hgrown, fun x hx => ?_⟩
    rcases List.mem_append.1 hx with hx | hx
    · exact hdata x (List.mem_append_left _ hx)
    · rw [List.mem_singleton.1 hx, PostEntry.length_merge]
      exact hunion
  · next hmerge =>
    rcases hroom with ⟨-, hm, -⟩ | ⟨hlength', hbytes'⟩
    · exact absurd hm hmerge
    · simp only [State.modWin_pq, PostQueue.append, PostQueue.InRoom, postBytes_append, postBytes_singleton]
      refine ⟨by simpa using hlength', hbytes', fun x hx => ?_⟩
      rcases List.mem_append.1 hx with hx | hx
      · exact hdata x hx
      · rw [List.mem_singleton.1 hx]
        exact (accessBytes_length_le c.be c.data).trans (by decide)

theorem PostQueue.fits_iff {q : PostQueue} {w : WinId} {next : Word} {offset n : Nat} (hq : postBytes q.entries ≤ 2048) :
    q.fits w next offset n = true ↔
      if q.wouldMerge w next offset n then postBytes q.entries + q.growth offset n ≤ 2048
      else q.entries.length < 32 ∧ postBytes q.entries + n ≤ 2048 := by
  have hfree (m : Nat) : m ≤ q.freeBytes ↔ postBytes q.entries + m ≤ 2048 := by
    change m ≤ 2048 - postBytes q.entries ↔ _
    omega
  unfold PostQueue.fits
  split
  · rw [decide_eq_true_eq, hfree]
  · rw [Bool.and_eq_true, decide_eq_true_eq, decide_eq_true_eq, hfree]
    exact Iff.rfl

/-- R62: a write that fits has its room. -/
theorem State.roomFor_of_fits {s : State} {w : WinId} {c : LocalCycle} (hq : s.pq.InRoom) (hfits : s.writeFits w c = true) :
    ({ s with pq := { s.pq with
        mergeHold := s.pq.wouldMerge w (s.win w).nextSeq (s.windowOffset w c) c.bytes.length } } : State).roomFor w c := by
  have hroom := (PostQueue.fits_iff hq.2.1).1 hfits
  split at hroom
  · next hmerge => exact .inl ⟨hmerge, hmerge, hroom⟩
  · exact .inr hroom

end Sys2Proof.Machine
end

section
/-!
The taken local writes and the ownership states keep the invariants (R56 to R68, R126 to R152).
-/

namespace Sys2Proof.Machine

/-! ### Window facts -/

theorem Window.isShare_iff {x : Window} : x.isShare = true ↔ x.role = some .share := by simp [Window.isShare]

theorem Window.not_owner_of_followed {x : Window} (h : x.followed = true) : x.ownership ≠ .owner := by
  intro ho
  simp [Window.followed, ho] at h

theorem Window.not_owner_of_not_owned {x : Window} (h : ¬x.owned = true) : x.ownership ≠ .owner := by
  intro ho
  simp [Window.owned, ho] at h

/-- A window's descriptor after a change that leaves it. -/
theorem State.modWin_desc (s : State) (w v : WinId) {f : Window → Window} (hf : ∀ x : Window, (f x).desc = x.desc) :
    ((s.modWin w f).win v).desc = (s.win v).desc := by
  rw [State.win_modWin_eq]
  split
  · next h => rw [h, hf]
  · rfl

/-- R60: a placed write that merges. -/
theorem State.placeWrite_of_merge {s : State} {w : WinId} {n : Nat} {bs : List Byte}
    (h : s.pq.wouldMerge w (s.win w).nextSeq n bs.length = true) :
    s.placeWrite w n bs = { s with pq := s.pq.mergeTail n bs } := by
  simp only [State.placeWrite, h, if_true]

/-- R60, R61: a placed write that appends takes the window's next sequence. -/
theorem State.placeWrite_of_append {s : State} {w : WinId} {n : Nat} {bs : List Byte}
    (h : ¬s.pq.wouldMerge w (s.win w).nextSeq n bs.length = true) :
    s.placeWrite w n bs =
      State.modWin { s with pq := s.pq.append w (s.win w).nextSeq n bs } w fun x => { x with nextSeq := x.nextSeq + 1 } := by
  simp only [State.placeWrite, h]
  rfl

theorem State.placeWrite_desc (s : State) (w v : WinId) (n : Nat) (bs : List Byte) :
    ((s.placeWrite w n bs).win v).desc = (s.win v).desc := by
  by_cases h : s.pq.wouldMerge w (s.win w).nextSeq n bs.length = true
  · rw [State.placeWrite_of_merge h]
    rfl
  · rw [State.placeWrite_of_append h]
    exact State.modWin_desc _ w v fun _ => rfl

theorem State.localWriteEffect_desc (s : State) (c : LocalCycle) (v : WinId) :
    ((s.localWriteEffect c).win v).desc = (s.win v).desc := by
  unfold State.localWriteEffect
  split
  · rfl
  · exact State.placeWrite_desc ..
  · next w _ =>
    exact State.modWin_desc (s.writeReplica c.addr c.bytes) w v
      (f := fun x => { x with nextSeq := x.nextSeq + 1, markNow := true }) fun _ => rfl
  all_goals rfl

theorem State.finishTaken_desc (s : State) (w v : WinId) : ((s.finishTaken w).win v).desc = (s.win v).desc := by
  unfold State.finishTaken
  split
  · rfl
  · split
    · exact s.localWriteEffect_desc _ v
    · rfl

theorem State.finishTaken_role (s : State) (w v : WinId) : ((s.finishTaken w).win v).role = (s.win v).role := by
  simp only [Window.role, s.finishTaken_desc w v]

theorem State.discardPosts_win (s : State) (w v : WinId) : (s.discardPosts w).win v = s.win v := by
  unfold State.discardPosts
  split <;> rfl

/-- The window a map's page names exists only when the maps do. -/
theorem WindowMaps.localMap_ne_nil {m : WindowMaps} {page : Nat} {w : WinId} (h : m.ofLocalPage page = some w) :
    m.localMap ≠ [] := by
  intro hnil
  simp [WindowMaps.ofLocalPage, hnil] at h

namespace State.Keeps

variable {P Q R : WinId → Prop} {s t u : State}

/-- A window that is not OWNER changes its ownership state, its role leaving that free. -/
theorem modWin_of_shared (h : s.Keeps P Q t) {w : WinId} {f : Window → Window}
    (hdesc : (f (t.win w)).desc = (t.win w).desc) (hstanding : (f (t.win w)).standing = (t.win w).standing)
    (hrange : (t.win w).InRange → (f (t.win w)).InRange) (hshared : (t.win w).Shared)
    (hQ : ¬(Q w ∧ (t.win w).ownership = .owner)) : s.Keeps P Q (t.modWin w f) :=
  h.modWin hdesc hstanding hrange
    (fun hr => by
      have ⟨hown, hfollow⟩ := hshared hr
      have hrole : (f (t.win w)).role = (t.win w).role := by simp only [Window.role, hdesc]
      simp [Window.RoleHolds, hrole, hown, hfollow])
    fun hQw ho => absurd ⟨hQw, ho⟩ hQ

/-! ### Taken writes -/

theorem setMergeHold (h : s.Keeps P Q t) (b : Bool) (hcycle : ∀ c ∈ t.lp.cycle, ∀ w : WinId, c.stage ≠ .allowedWrite w) :
    s.Keeps P Q (t.setMergeHold b) :=
  h.withQueue (fun hl _ => ((listsBounded_iff _).1 hl).1) (fun _ c hc w hw => absurd hw (hcycle c hc w)) fun _ => id

/-- No cycle's access, or one that has completed, is a taken write. -/
theorem setMergeHold_of_not_taken (h : s.Keeps P Q t) (b : Bool) (hcycle : ∀ c ∈ t.lp.cycle, c.stage.takenFor = none) :
    s.Keeps P Q (t.setMergeHold b) :=
  h.setMergeHold b fun c hc w hw => by simpa [hw, Stage.takenFor] using hcycle c hc

theorem waitForGrant (h : s.Keeps P Q t) : s.Keeps P Q t.waitForGrant := h.setWait _

/-- The cycle goes on to a taken write that is not allowed yet. -/
theorem setStage_of_owner (h : s.Keeps P Q t) {c : LocalCycle} {stage : Stage} {w : WinId} (hstage : stage.takenFor = some w)
    (hallowed : ListsBounded t → t.TakenRoom Q → stage = .allowedWrite w → t.roomFor w c)
    (howner : t.TakenRoom Q → Q w → (t.win w).ownership = .owner)
    (hload : t.TakenRoom Q → ¬(t.lp.inReset = true ∨ t.lp.load ≠ .none)) : s.Keeps P Q (t.setStage c stage) :=
  h.modLp rfl rfl fun hl ht c' hc' v hv => by
    obtain rfl : { c with stage := stage } = c' := Option.some.inj hc'
    obtain rfl : w = v := Option.some.inj (hstage.symm.trans hv)
    exact ⟨fun hQ => ⟨howner ht hQ, fun hst => hallowed hl ht hst⟩, hload ht⟩

/-- R62: a write that fits is allowed with its room. -/
theorem allowWrite (h : s.Keeps P Q t) {w : WinId} {c : LocalCycle} (hfits : t.writeFits w c = true)
    (hcycle : ∀ c ∈ t.lp.cycle, ∀ v : WinId, c.stage ≠ .allowedWrite v)
    (howner : t.TakenRoom Q → Q w → (t.win w).ownership = .owner)
    (hload : t.TakenRoom Q → ¬(t.lp.inReset = true ∨ t.lp.load ≠ .none)) : s.Keeps P Q (t.allowWrite w c) := by
  have hheld := h.setMergeHold (t.pq.wouldMerge w (t.win w).nextSeq (t.windowOffset w c) c.bytes.length) hcycle
  have hback : (t.setMergeHold (t.pq.wouldMerge w (t.win w).nextSeq (t.windowOffset w c) c.bytes.length)).TakenRoom Q →
      t.TakenRoom Q := fun ht => by
    refine ⟨fun c' hc' v hv hQ => ⟨(ht.1 c' hc' v hv hQ).1, fun hst => absurd hst (hcycle c' hc' v)⟩, ht.2⟩
  have hstaged := hheld.setStage_of_owner (c := c) (stage := .allowedWrite w) rfl
    (fun hl _ _ => State.roomFor_of_fits (s := t) ((listsBounded_iff _).1 hl).1 hfits) (fun ht => howner (hback ht))
    fun ht => hload (hback ht)
  exact hstaged.quiet ((Quiet.refl _).requestGrant _)

/-- R62: a held write that fits after a removal is allowed. -/
theorem retestHeld (h : s.Keeps P EveryWindow t) : s.Keeps P EveryWindow t.retestHeld := by
  unfold State.retestHeld
  split
  · exact h
  · next c hc =>
    split
    · next w n hstage =>
      have htaken : c.stage.takenFor = some w := by rw [hstage]; rfl
      split
      · next hfits =>
        refine h.allowWrite hfits (fun c' hc' v => ?_) (fun ht _ => (ht.1 c hc w htaken trivial).1) fun ht hloading => ?_
        · rw [hc, Option.mem_some_iff] at hc'
          rw [← hc', hstage]
          simp
        · rw [(ht.2.2 hloading).2 c hc] at htaken
          cases htaken
      · exact h
    all_goals exact h

theorem refuseTaken (h : s.Keeps P Q t) (w : WinId) : s.Keeps P Q (t.refuseTaken w) := by
  unfold State.refuseTaken
  split
  · exact h
  · next c hc =>
    split
    · have hstaged : s.Keeps P Q (t.setStage c .complete) := h.setStage_of_not_taken c rfl
      have hheld := hstaged.setMergeHold_of_not_taken false fun c' hc' => by
        obtain rfl : { c with stage := Stage.complete } = c' := Option.some.inj hc'
        rfl
      exact ((hheld.quiet ((Quiet.refl _).withdrawRequest .localPort)).setWait false).quiet ((Quiet.refl _).recordEvent _)
    · exact h

end State.Keeps

/-- After the refusal no write of the window is in progress (R58). -/
theorem State.refuseTaken_takenFor (s : State) (w : WinId) :
    ∀ c ∈ (s.refuseTaken w).lp.cycle, ∀ v ∈ c.stage.takenFor, v ≠ w := by
  unfold State.refuseTaken
  split
  · next hnone => simp [hnone]
  · next c hc =>
    split
    · intro c' hc'
      obtain rfl : { c with stage := Stage.complete } = c' := Option.some.inj hc'
      simp [Stage.takenFor]
    · next hne =>
      intro c' hc' v hv hvw
      rw [hc, Option.mem_some_iff] at hc'
      exact hne (by rw [hc', ← hvw]; exact hv)

namespace State.Keeps

variable {P Q R : WinId → Prop} {s t u : State}

/-- R58: the writes of the window the refusal was for are held to their room again, there being none. -/
theorem refuseTaken_restore {w : WinId} (h : s.Keeps P (fun v => v ≠ w) t) : s.Keeps P EveryWindow (t.refuseTaken w) :=
  (h.refuseTaken w).restore (t.refuseTaken_takenFor w)

/-- A write placed as it was allowed. Its own room is used up. -/
theorem placeWrite (h : s.Keeps P EveryWindow t) {w : WinId} {c : LocalCycle}
    (hroom : t.TakenRoom EveryWindow → t.roomFor w c) :
    s.Keeps P (fun _ => False) (t.placeWrite w (t.windowOffset w c) c.bytes) := by
  have hq (hl : ListsBounded t) (ht : t.TakenRoom EveryWindow) :=
    State.placeWrite_inRoom ((listsBounded_iff _).1 hl).1 (hroom ht)
  by_cases hmerge : t.pq.wouldMerge w (t.win w).nextSeq (t.windowOffset w c) c.bytes.length = true
  · simp only [State.placeWrite_of_merge hmerge] at hq ⊢
    exact h.withQueue hq (fun _ _ _ _ _ hfalse => hfalse.elim) fun _ => False.elim
  · simp only [State.placeWrite_of_append hmerge, State.modWin_pq] at hq ⊢
    exact (h.withQueue (R := fun _ => False) hq (fun _ _ _ _ _ hfalse => hfalse.elim) fun _ => False.elim).modWin rfl rfl
      (fun hr => hr) (fun hr => hr) fun hfalse => hfalse.elim

/-- The effect of the cycle's own write, by which its room is used up. -/
theorem localWriteEffect (h : s.Keeps P EveryWindow t) {c : LocalCycle} (hc : t.lp.cycle = some c) :
    s.Keeps P (fun _ => False) (t.localWriteEffect c) := by
  have hnone : s.Keeps P (fun _ => False) t := h.weaken fun _ => False.elim
  unfold State.localWriteEffect
  split
  · exact hnone.quiet (by simp)
  · next w hstage =>
    have hstored : s.Keeps P EveryWindow (t.writeReplica c.addr c.bytes) := h.quiet (by simp)
    have hplaced := hstored.placeWrite (c := c) fun ht => (ht.1 c hc w (by rw [hstage]; rfl) trivial).2 hstage
    exact hplaced.withQueue (fun hl _ => ((listsBounded_iff _).1 hl).1) (fun _ _ _ _ _ hfalse => hfalse.elim)
      fun _ => False.elim
  · next w hstage =>
    have hstored : s.Keeps P (fun _ => False) (t.writeReplica c.addr c.bytes) := hnone.quiet (by simp)
    exact (hstored.modWin rfl rfl (fun hr => hr) (fun hr => hr) fun hfalse => hfalse.elim).quiet
      ((Quiet.refl _).recordEvent _)
  all_goals exact hnone

theorem endLocalWrite (h : s.Keeps P EveryWindow t) {c : LocalCycle} (hc : t.lp.cycle = some c) :
    s.Keeps P EveryWindow (t.endLocalWrite c) :=
  (((h.localWriteEffect hc).setStage_of_not_taken (R := EveryWindow) c (by rfl)).setWait false).quiet
    (Quiet.refl _).releaseGrant

theorem finishTaken (h : s.Keeps P EveryWindow t) (w : WinId) : s.Keeps P EveryWindow (t.finishTaken w) := by
  unfold State.finishTaken
  split
  · exact h
  · next c hc => exact ite (h.endLocalWrite hc) h

/-- The access of the cycle in progress ends, and with it the cycle. -/
theorem endCycle (h : s.Keeps P EveryWindow t) {c : LocalCycle} (hc : t.lp.cycle = some c) :
    s.Keeps P EveryWindow ((t.endAccess c).modLp LocalPort.idle) := by
  have hended {u : State} (hu : s.Keeps P (fun _ => False) u) : s.Keeps P EveryWindow (u.modLp LocalPort.idle) :=
    hu.modLp_of_not_taken rfl rfl (by simp [LocalPort.idle])
  have hnone : s.Keeps P (fun _ => False) t := h.weaken fun _ => False.elim
  have hwrite : s.Keeps P EveryWindow
      ((if t.granted .localPort then t.endLocalWrite c else
        (t.withdrawRequest .localPort).setMergeHold false).modLp LocalPort.idle) := by
    split
    · exact hended ((h.endLocalWrite hc).weaken fun _ => False.elim)
    · exact hended ((hnone.quiet ((Quiet.refl t).withdrawRequest _)).withQueue (fun hl _ => ((listsBounded_iff _).1 hl).1)
        (fun _ _ _ _ _ hfalse => hfalse.elim) fun _ => id)
  unfold State.endAccess
  split
  · exact hended hnone
  · exact hended hnone
  · exact hended (ite (hnone.quiet (by simp)) (hnone.quiet (by simp)))
  all_goals exact hwrite

/-! ### Claims -/

theorem startClaim (h : s.Keeps P Q t) {w : WinId} (hrole : (t.win w).role = some .share)
    (hnot : (t.win w).ownership ≠ .owner) : s.Keeps P Q (t.startClaim w) :=
  (h.modWin_of_shared rfl rfl (fun ⟨hu, hr, hb, _⟩ => ⟨hu, hr, hb, by simp⟩) (Window.shared_of_share hrole) fun hQ => hnot hQ.2).quiet
    ((Quiet.refl _).makeDue _)

theorem endClaim (h : s.Keeps P Q t) {w : WinId} (hclaiming : (t.win w).ownership = .claiming) :
    s.Keeps P Q (t.endClaim w) := by
  have hexit := (Quiet.refl t).exitClaiming w
  have hown : ((t.exitClaiming w).win w).ownership = .claiming := (hexit.ownership w).trans hclaiming
  exact (h.quiet hexit).modWin_of_shared rfl rfl (fun hr => hr) (Window.shared_of_claiming hown) (by simp [hown])

theorem loseClaim (h : s.Keeps P Q t) (w : WinId) (winner : Station) : s.Keeps P Q (t.loseClaim w winner) := by
  unfold State.loseClaim
  split
  · next hclaiming => exact (h.endClaim hclaiming).quiet ((Quiet.refl _).recordEvent _)
  · exact h

/-- A window that is not OWNER, its role leaving its ownership state free, gets one (R144, R146). -/
theorem leaveFollowed_modWin (h : s.Keeps P Q t) {w : WinId} {f : Window → Window} (hdesc : ∀ x, (f x).desc = x.desc)
    (hstanding : ∀ x, (f x).standing = x.standing) (hrange : ∀ x : Window, x.InRange → (f x).InRange)
    (hshared : (t.win w).Shared) (hnot : (t.win w).ownership ≠ .owner) :
    s.Keeps P Q (((t.exitClaiming w).leaveFollowed w).modWin w f) := by
  have hleft := ((Quiet.refl t).exitClaiming w).leaveFollowed w
  have hown := hleft.ownership w
  refine (h.quiet hleft).modWin_of_shared (hdesc _) (hstanding _) (hrange _) (fun hr => ?_) fun hQ => hnot (hown ▸ hQ.2)
  rw [hleft.role]
  refine hshared ?_
  simpa only [Window.RoleHolds, hleft.role, hown] using hr

theorem becomeOwner (h : s.Keeps P Q t) {w : WinId} (g : Byte) (q : Word) (hshared : (t.win w).Shared)
    (hnot : (t.win w).ownership ≠ .owner) : s.Keeps P Q (t.becomeOwner w g q) := by
  simp only [State.becomeOwner]
  exact h.leaveFollowed_modWin (fun _ => rfl) (fun _ => rfl) (fun _ ⟨hu, _, hb, hc⟩ => ⟨hu, by simp, hb, hc⟩) hshared hnot

theorem becomeReturner (h : s.Keeps P Q t) {w : WinId} (granter : Station) (g : Byte) (q : Word)
    (hshared : (t.win w).Shared) (hnot : (t.win w).ownership ≠ .owner) : s.Keeps P Q (t.becomeReturner w granter g q) :=
  h.leaveFollowed_modWin (fun _ => rfl) (fun _ => rfl) (fun _ hr => hr) hshared hnot

theorem takeover (h : s.Keeps P Q t) {w : WinId} (hshared : (t.win w).Shared) (hnot : (t.win w).ownership ≠ .owner) :
    s.Keeps P Q (t.takeover w) :=
  (h.becomeOwner _ _ hshared hnot).quiet (((Quiet.refl _).makeDue _).recordEvent _)

theorem takeGrant (h : s.Keeps P Q t) {w : WinId} (src : Station) (g : Byte) (q : Word) (returned : Bool)
    (hshared : (t.win w).Shared) (hnot : (t.win w).ownership ≠ .owner) : s.Keeps P Q (t.takeGrant w src g q returned) := by
  have howner := h.becomeOwner g q hshared hnot
  simp only [State.takeGrant]
  split
  · exact howner.quiet ((Quiet.refl _).recordEvent _)
  split
  · exact (howner.quiet ((Quiet.refl _).recordEvent _)).modSe fun he => SweepEngine.ask_inRoom he w _
  · exact h.becomeReturner _ _ _ hshared hnot

/-! ### Handing over and yielding -/

/-- R139: the claimed window's taken writes are refused, so that none is left of a window that is not OWNER. -/
theorem enterGranting (h : s.Keeps P EveryWindow t) {w : WinId} (claimant : Station)
    (hrole : (t.win w).role = some .share) : s.Keeps P EveryWindow (t.enterGranting w claimant) := by
  have hfinished : s.Keeps P (fun v => v ≠ w) (t.finishTaken w) := (h.finishTaken w).weaken fun _ _ => trivial
  have hshared : ((t.finishTaken w).win w).Shared :=
    Window.shared_of_share ((t.finishTaken_role w w).trans hrole)
  have hgranting := hfinished.modWin_of_shared (f := fun x =>
    { x with ownership := .granting, grantee := some claimant, returned := false, markTimer := .stopped })
    rfl rfl (fun hr => hr) hshared fun hQ => hQ.1 rfl
  exact ((hgranting.abandonSweep w).quiet ((Quiet.refl _).withdrawOwnerFrames _)).refuseTaken_restore

/-- R68: entries of the window leave, which no allowed write of another window needs. -/
theorem discardPosts (h : s.Keeps P EveryWindow t) (w : WinId) : s.Keeps P (fun v => v ≠ w) (t.discardPosts w) := by
  unfold State.discardPosts
  split
  · exact h.weaken fun _ _ => trivial
  · refine (h.withQueue (fun hl _ => ?_) (fun _ c _ v _ hv hroom => ?_) fun _ _ => trivial).quiet
      (((Quiet.refl _).count _ _).recordEvent _)
    · exact ((listsBounded_iff _).1 hl).1.of_sublist List.filter_sublist _
    · refine State.roomFor_of_sublist hroom List.filter_sublist fun e he hev _ => ?_
      obtain ⟨front, hfront⟩ := List.getLast?_eq_some_iff.1 he
      have hne : e.window ≠ w := by rwa [hev]
      simp [hfront, List.filter_append, hne]

/-- R132: the yielding window's entries and taken writes go, and it follows the winner. -/
theorem yieldTo (h : s.Keeps P EveryWindow t) {w : WinId} (owner : Station) (g : Byte) (src : Station)
    (hrole : (t.win w).role = some .share) : s.Keeps P EveryWindow (t.yieldTo w owner g src) := by
  simp only [State.yieldTo]
  have hposts := ((h.finishTaken w).discardPosts w).abandonSweep w
  have hframes := hposts.quiet ((Quiet.refl _).withdrawOwnerFrames (Source.isOwners w))
  refine retestHeld (refuseTaken_restore ((hframes.modWin_of_shared rfl rfl (fun hr => hr) ?_ fun hQ => hQ.1 rfl).quiet
    (((Quiet.refl _).enterGap w).recordEvent _)))
  refine Window.shared_of_share ?_
  change Window.role (State.win (State.discardPosts (t.finishTaken w) w) w) = _
  rw [State.discardPosts_win, State.finishTaken_role, hrole]

theorem judgeRival (h : s.Keeps P EveryWindow t) {w : WinId} (g : Byte) (named src : Station)
    (hrole : (t.win w).role = some .share) : s.Keeps P EveryWindow (t.judgeRival w g named src) := by
  unfold State.judgeRival
  split
  · exact h.yieldTo _ _ _ hrole
  · exact h.quiet (((Quiet.refl t).count _ _).modWin (by simp))

/-! ### Frames of the Ownership Unit -/

theorem handleClaim (h : s.Keeps P EveryWindow t) {w : WinId} (src : Station) (hrole : (t.win w).role = some .share) :
    s.Keeps P EveryWindow (t.handleClaim w src) := by
  simp only [State.handleClaim]
  split
  · split
    · exact ite h (h.quiet ((Quiet.refl t).makeDue _))
    · exact h.enterGranting src hrole
  · exact h

theorem handleDeny (h : s.Keeps P Q t) (w : WinId) (src target : Station) : s.Keeps P Q (t.handleDeny w src target) := by
  simp only [State.handleDeny]
  split
  · next hdenied => exact (h.endClaim hdenied.1).quiet ((Quiet.refl _).recordEvent _)
  · exact h

theorem handleGrantHere (h : s.Keeps P EveryWindow t) {w : WinId} (src : Station) (g : Byte) (q : Word) (returned : Bool)
    (hrole : (t.win w).role = some .share) : s.Keeps P EveryWindow (t.handleGrantHere w src g q returned) := by
  simp only [State.handleGrantHere]
  split
  · exact ite (h.quiet ((Quiet.refl t).count _ _)) (h.quiet ((Quiet.refl t).modWin (by simp)))
  · next howned =>
    have hadopted := (Quiet.refl t).adopt w t.station g
    split
    · refine (h.quiet hadopted).takeGrant src g q returned (Window.shared_of_share ((hadopted.role w).trans hrole)) ?_
      rw [hadopted.ownership]
      exact Window.not_owner_of_not_owned howned
    · exact h.quiet (Quiet.refl t).foreign

/-- A frame that passes the check of R129 names the owner from here on and ends a claim (R148, R151). -/
theorem followNewOwner (h : s.Keeps P Q t) (w : WinId) (named src : Station) (g : Byte) (q : Word) :
    s.Keeps P Q (((t.adopt w named g).loseClaim w named).checkNextSeq w src q) :=
  ((h.quiet ((Quiet.refl t).adopt w named g)).loseClaim w named).quiet ((Quiet.refl _).checkNextSeq _ _ _)

theorem handleGrantElsewhere (h : s.Keeps P EveryWindow t) {w : WinId} (src grantee : Station) (g : Byte) (q : Word)
    (hrole : (t.win w).role = some .share) : s.Keeps P EveryWindow (t.handleGrantElsewhere w src grantee g q) := by
  simp only [State.handleGrantElsewhere]
  split
  · exact h.judgeRival _ _ _ hrole
  · exact ite (h.followNewOwner w grantee src g q) (h.quiet (Quiet.refl t).foreign)

theorem handleTakeover (h : s.Keeps P EveryWindow t) {w : WinId} (src : Station) (g : Byte) (q : Word)
    (hrole : (t.win w).role = some .share) : s.Keeps P EveryWindow (t.handleTakeover w src g q) := by
  simp only [State.handleTakeover]
  split
  · exact h.judgeRival _ _ _ hrole
  · exact ite (h.followNewOwner w src src g q) (h.quiet (Quiet.refl t).foreign)

/-! ### The end of an attempt -/

theorem afterFailure (h : s.Keeps P Q t) {w : WinId} (hnot : (t.win w).ownership ≠ .owner) :
    s.Keeps P Q (t.afterFailure w) := by
  unfold State.afterFailure
  split
  · exact h.quiet ((Quiet.refl t).enterGap w)
  split
  · next htakes =>
    have hgap : t.Quiet (t.modWin w fun x => { x with sync := .gap, gapOrigin := some .here, wait := .stopped }) :=
      (Quiet.refl t).modWin (by simp)
    have hshare : (t.win w).role = some .share := by
      simp only [State.takesOverAtFailure, Bool.and_eq_true, Window.isShare_iff] at htakes
      exact htakes.1.1
    refine (h.quiet hgap).takeover (Window.shared_of_share ((hgap.role w).trans hshare)) ?_
    rwa [hgap.ownership]
  · exact h.quiet (((Quiet.refl t).enterStale w).recordEvent _)

theorem failAttempt (h : s.Keeps P Q t) {w : WinId} (hfollowed : (t.win w).followed = true) :
    s.Keeps P Q (t.failAttempt w) := by
  simp only [State.failAttempt]
  have hretry : t.Quiet ((t.releaseBound w).modWin w fun x => { x with retry := min Config.retryLimit (x.retry + 1) }) :=
    ((Quiet.refl t).releaseBound w).modWin ⟨rfl, rfl, rfl, rfl, fun ⟨hu, _, hb, hc⟩ => ⟨hu, Nat.min_le_left _ _, hb, hc⟩⟩
  refine (h.quiet (hretry.recordEvent _)).afterFailure ?_
  rw [(hretry.recordEvent _).ownership]
  exact Window.not_owner_of_followed hfollowed

theorem takeEnd (h : s.Keeps P Q t) {w : WinId} (src : Station) (i : Byte) (abandoned : Bool)
    (hfollowed : (t.win w).followed = true) : s.Keeps P Q (t.takeEnd w src i abandoned) := by
  simp only [State.takeEnd]
  split
  · exact h
  split
  · have hstopped : t.Quiet (t.modWin w fun x => { x with wait := .stopped }) := (Quiet.refl t).modWin (by simp)
    split
    · refine (h.quiet hstopped).failAttempt ?_
      simpa [Window.followed, hstopped.ownership] using hfollowed
    · exact h.quiet (hstopped.applyDeferred _ _)
  · exact h

/-! ### Handling -/

theorem ownerChecked (h : s.Keeps P EveryWindow t) (w : WinId) (src : Station) (g : Byte) (isUpdate : Bool)
    {k : State → Bool → State} (hk : ∀ (u : State) (b : Bool), u.Quiet (k u b)) :
    s.Keeps P EveryWindow (t.ownerChecked w src g isUpdate k) := by
  simp only [State.ownerChecked]
  split
  · exact ite (h.quiet (hk t _)) (h.quiet (Quiet.refl t).foreign)
  · next hrole =>
    split
    · exact h.judgeRival _ _ _ hrole
    · have hadopted := (Quiet.refl t).adopt w src g
      exact ite (h.quiet ((Quiet.ite (hadopted.restartClaim _ _) hadopted).trans (hk _ _)))
        (h.quiet (Quiet.refl t).foreign)
  all_goals exact h.quiet ((Quiet.refl t).ownConflict _ _)

theorem shareOnly (h : s.Keeps P Q t) {w : WinId} (src : Station) {k : State → State}
    (hk : (t.win w).role = some .share → s.Keeps P Q (k t)) : s.Keeps P Q (t.shareOnly w src k) := by
  unfold State.shareOnly
  split
  · next hrole => exact hk hrole
  · exact h.quiet (Quiet.refl t).foreign
  all_goals exact h.quiet ((Quiet.refl t).ownConflict _ _)

theorem sweepChecked (h : s.Keeps P Q t) {w : WinId} (src : Station) {k : State → State}
    (hk : (t.win w).followed = true → s.Keeps P Q (k t)) : s.Keeps P Q (t.sweepChecked w src k) := by
  unfold State.sweepChecked
  split
  · next hfollowed => exact ite (hk hfollowed) (h.quiet (Quiet.refl t).foreign)
  · exact h

theorem handleFor (h : s.Keeps P EveryWindow t) (w : WinId) (src : Station) (body : Body) :
    s.Keeps P EveryWindow (t.handleFor w src body) := by
  unfold State.handleFor
  split
  · exact h.ownerChecked w src _ true fun u _ => (Quiet.refl u).takeRecords _ _ _ _ _
  · exact h.ownerChecked w src _ false fun u _ => (Quiet.refl u).takeMark _ _ _ _
  · exact (h.answerRequest w src _).quiet ((Quiet.refl _).suppress _ _)
  · exact h.sweepChecked src fun _ => h.quiet ((Quiet.refl t).followBegin _ _ _ _ _ _)
  · exact h.sweepChecked src fun _ => ite (h.quiet ((Quiet.refl t).takePage _ _ _ _ _)) h
  · exact h.sweepChecked src fun hfollowed => ite (h.takeEnd _ _ _ hfollowed) h
  · exact h.shareOnly src fun hrole => h.handleClaim _ hrole
  · exact h.shareOnly src fun hrole => ite (h.handleGrantHere _ _ _ _ hrole) (h.handleGrantElsewhere _ _ _ _ hrole)
  · exact h.shareOnly src fun _ => h.handleDeny _ _ _
  · exact h.shareOnly src fun hrole => h.handleTakeover _ _ _ hrole
  · exact h

theorem handleFrame (h : s.Keeps P EveryWindow t) (f : Frame) : s.Keeps P EveryWindow (t.handleFrame f) := by
  unfold State.handleFrame
  split
  · exact h.handleMessage _ _ _ _ _ _
  all_goals
    split
    · exact h
    · exact (h.handleFor _ _ _).quiet (Quiet.refl _).settleGrants

theorem runHold (h : s.Keeps P EveryWindow t) (n : Nat) : s.Keeps P EveryWindow (t.runHold n) := by
  induction n generalizing t with
  | zero => exact h
  | succ n ih =>
    simp only [State.runHold]
    split
    · split
      · exact ih ((h.handleFrame _).quiet (Quiet.refl _).popHold)
      · exact h.handleFrame _
    · exact h

theorem resumeHold (h : s.Keeps P EveryWindow t) : s.Keeps P EveryWindow t.resumeHold := h.runHold _

theorem holdFrame (h : s.Keeps P EveryWindow t) (f : Frame) : s.Keeps P EveryWindow (t.holdFrame f) := by
  simp only [State.holdFrame]
  split
  · next hroom =>
    have hroom' : t.rh.slots.length < 3 := hroom
    exact (h.withHold fun _ => by simpa using hroom').resumeHold
  · next hfull =>
    have hfull' : ¬t.rh.slots.length < 3 := hfull
    exact (h.withHold fun hslots => by simp; omega).quiet (((Quiet.refl _).count _ _).recordEvent _)

theorem filterFrame (h : s.Keeps P EveryWindow t) (f : Frame) : s.Keeps P EveryWindow (t.filterFrame f) := by
  unfold State.filterFrame
  split
  · exact h.quiet ((Quiet.refl t).recordEvent _)
  split
  · exact h
  split
  · exact ite (h.holdFrame f) h
  · exact h.holdFrame f

theorem finishFrame (h : s.Keeps P EveryWindow t) : s.Keeps P EveryWindow t.finishFrame :=
  (h.quiet (Quiet.refl t).popHold.settleGrants).resumeHold

theorem continueFrame (h : s.Keeps P EveryWindow t) : s.Keeps P EveryWindow t.continueFrame := by
  unfold State.continueFrame
  split
  · exact h.finishFrame
  · exact h

end State.Keeps

end Sys2Proof.Machine
end

section
/-!
Every command and every bit time keeps the invariants: transmission, the local port, the timers, the control area, the
commands and the load, block by block, and then the step.
-/

namespace Sys2Proof.Machine

/-! ### The tail of the post queue -/

theorem PostQueue.wouldMerge_congr {q q' : PostQueue} (h : q'.entries.getLast? = q.entries.getLast?) (w : WinId)
    (next : Word) (offset n : Nat) : q'.wouldMerge w next offset n = q.wouldMerge w next offset n := by
  simp only [PostQueue.wouldMerge, h]

theorem PostQueue.growth_congr {q q' : PostQueue} (h : q'.entries.getLast? = q.entries.getLast?) (offset n : Nat) :
    q'.growth offset n = q.growth offset n := by
  simp only [PostQueue.growth, h]

theorem PostQueue.getLast?_seal {q : PostQueue} {n : Nat} (h : n < q.entries.length) :
    (q.seal n).entries.getLast? = q.entries.getLast? := by
  cases hlast : q.entries.getLast? with
  | none => simp [List.getLast?_eq_none_iff.1 hlast] at h
  | some e => simp [PostQueue.seal, List.getLast?_append, List.getLast?_drop, Nat.not_le.2 h, hlast]

theorem getLast?_dropWhile {α : Type} {p : α → Bool} {l : List α} {x : α} (h : l.getLast? = some x) (hx : p x = false) :
    (l.dropWhile p).getLast? = some x := by
  obtain ⟨front, rfl⟩ := List.getLast?_eq_some_iff.1 h
  rw [List.dropWhile_append]
  split <;> simp [hx]

namespace State.Keeps

variable {P Q R : WinId → Prop} {s t u : State}

/-! ### Transmission -/

/-- R66: sealing an UPDATE's entries takes no room, and leaves an entry with a merge hold open. -/
theorem assembled (h : s.Keeps P Q t) {o : OnLine} (ho : t.nextFrame = some o) : s.Keeps P Q (t.assembled o) := by
  unfold State.assembled
  split
  · next w q hsource =>
    obtain ⟨-, htakes⟩ := State.taken_of_update ho hsource
    obtain ⟨-, -, -, -, -, hhold, -⟩ := htakes
    have hdata : (t.pq.seal t.pq.taken).entries.map (fun e => e.data.length) =
        t.pq.entries.map fun e => e.data.length := by
      rw [PostQueue.seal, List.map_append, List.map_map, Function.comp_def, ← List.map_append, List.take_append_drop]
    have hlength : (t.pq.seal t.pq.taken).entries.length = t.pq.entries.length := by
      simpa using congrArg List.length hdata
    have hbytes : postBytes (t.pq.seal t.pq.taken).entries = postBytes t.pq.entries := congrArg List.sum hdata
    refine h.withQueue (fun hl _ => ?_) (fun _ c _ v _ _ hroom => ?_) fun _ => id
    · obtain ⟨hlen, hsum, hall⟩ := ((listsBounded_iff _).1 hl).1
      refine ⟨hlength.trans_le hlen, hbytes.trans_le hsum, fun e he => ?_⟩
      obtain ⟨e', he', heq⟩ : ∃ e' ∈ t.pq.entries, e'.data.length = e.data.length := by
        have hmem := List.mem_map_of_mem (f := fun e : PostEntry => e.data.length) he
        rw [hdata] at hmem
        simpa using hmem
      exact heq ▸ hall e' he'
    · rcases hroom with ⟨hh, hmerge, hroom⟩ | ⟨hlen, hsum⟩
      · have hlast := PostQueue.getLast?_seal (hhold hh)
        refine .inl ⟨hh, (PostQueue.wouldMerge_congr hlast _ _ _ _).trans hmerge, ?_⟩
        exact (Nat.add_le_add hbytes.le (PostQueue.growth_congr hlast _ _).le).trans hroom
      · exact .inr ⟨hlength.trans_lt hlen, (Nat.add_le_add_right hbytes.le _).trans hsum⟩
  · exact h.quiet ((Quiet.refl t).requestIn _ _)
  all_goals exact h

theorem releaseLine (h : s.Keeps P Q t) (f : OnLine) : s.Keeps P Q (t.releaseLine f) :=
  ((h.quiet ((Quiet.refl t).setTx .idle).dropPageRead).sweepFrameLost f.source).quiet (Quiet.refl _).settleGrants

theorem enterFaulted (h : s.Keeps P Q t) : s.Keeps P Q t.enterFaulted :=
  (h.modLi fun hr => hr).quiet ((Quiet.refl _).recordEvent _)

theorem enterListen (h : s.Keeps P Q t) : s.Keeps P Q t.enterListen := h.modLi fun hr => hr

/-- R143: the granted window follows its new owner. -/
theorem grantCompleted (h : s.Keeps P Q t) (w : WinId) (g : Byte) (q : Word) (grantee : Station) (returned : Bool) :
    s.Keeps P Q (t.grantCompleted w g q grantee returned) := by
  simp only [State.grantCompleted]
  split
  · next hgranting =>
    have hfollower := (h.quiet ((Quiet.refl t).withdrawDue fun f => decide (f = .grant w))).modWin_of_shared (w := w)
      (f := fun x => { x with ownership := .follower, recordedOwner := grantee, generation := g, grantee := none,
                              returned := false, markNow := false })
      rfl rfl (fun hr => hr) (Window.shared_of_granting hgranting) fun hQ => by cases hgranting.symm.trans hQ.2
    exact (ite (hfollower.quiet ((Quiet.refl _).enterGap w)) (hfollower.quiet ((Quiet.refl _).enterSynced w q))).quiet
      ((Quiet.refl _).recordEvent _)
  · exact h

/-- R67: the entries that leave are sealed ones at the head, which no allowed write needs. -/
theorem updateCompleted (h : s.Keeps P EveryWindow t) (w : WinId) (seqs : List Word) :
    s.Keeps P EveryWindow (t.updateCompleted w seqs) := by
  simp only [State.updateCompleted]
  have hleft := List.dropWhile_sublist (fun e : PostEntry => e.sealed && decide (e.window = w) && decide (e.seq ∈ seqs))
    (l := t.pq.entries)
  refine ((h.withQueue (fun hl _ => ((listsBounded_iff _).1 hl).1.of_sublist hleft _) (fun _ c _ v _ _ hroom => ?_)
    fun _ => id).quiet ((Quiet.refl _).restartMark w)).retestHeld
  exact State.roomFor_of_sublist hroom hleft fun e he _ hopen => getLast?_dropWhile he (by simp [hopen])

theorem takeoverCompleted (h : s.Keeps P Q t) (w : WinId) : s.Keeps P Q (t.takeoverCompleted w) := by
  have hdue := h.quiet ((Quiet.refl t).withdrawDue fun f => decide (f.source = .takeover w))
  exact ite (hdue.modSe fun he => SweepEngine.ask_inRoom he w _) hdue

theorem tellSource (h : s.Keeps P EveryWindow t) (f : OnLine) : s.Keeps P EveryWindow (t.tellSource f) := by
  unfold State.tellSource
  split
  · exact ite h (h.grantCompleted _ _ _ _ _)
  · exact ite h (h.quiet ((Quiet.refl t).denyCompleted _ _))
  · exact ite h (h.takeoverCompleted _)
  · exact ite h (h.quiet ((Quiet.refl t).claimCompleted _))
  · exact h.updateCompleted _ _
  · exact h.quiet ((Quiet.refl t).markCompleted _)
  · exact ite h (h.quiet ((Quiet.refl t).refreshReqCompleted _))
  · exact h.modSe fun he => SweepEngine.beginCompleted_inRoom he _ _ _
  · exact h.modSe fun he => SweepEngine.dataCompleted_inRoom he _ _
  · exact h.sweepEndCompleted _
  · exact h.messageCompleted
  all_goals exact h

/-! ### The local port -/

theorem controlCycle (h : s.Keeps P Q t) (write : Bool) (a : BitVec 16) (be : BitVec 2) (data : Word) :
    s.Keeps P R (t.controlCycle write a be data) := h.beginCycle_of_not_taken write a be data (by rfl)

theorem controlRead (h : s.Keeps P Q t) (off : Nat) (be : BitVec 2) (value : Word) :
    s.Keeps P R (t.controlRead off be value) := (h.controlCycle (R := R) false _ be 0).drive _

theorem reply (h : s.Keeps P Q t) (code : Word) (result : CommandResult) (reason : Reason) (probe : ProbeFields) :
    s.Keeps P Q (t.reply code result reason probe) :=
  (h.controlCycle true _ 3 code).modLp_of_same_cycle rfl rfl rfl

theorem done (h : s.Keeps P Q t) (code : Word) : s.Keeps P Q (t.done code) := h.reply _ _ _ _

theorem refuse (h : s.Keeps P Q t) (code : Word) (reason : Reason) : s.Keeps P Q (t.refuse code reason) := h.reply _ _ _ _

theorem captureTime (h : s.Keeps P Q t) : s.Keeps P Q t.captureTime := h.modLi fun hr => hr

theorem releaseTime (h : s.Keeps P Q t) : s.Keeps P Q t.releaseTime := h.modLi fun hr => hr

theorem captureRecord (h : s.Keeps P Q t) (w : WinId) : s.Keeps P Q (t.captureRecord w) :=
  h.modLp_of_same_cycle rfl rfl rfl

theorem afterRead (h : s.Keeps P Q t) (off : Nat) : s.Keeps P Q (t.afterRead off) := by
  unfold State.afterRead
  exact ite h.captureTime (ite h.releaseTime (ite (h.captureRecord _) h))

theorem readControl (h : s.Keeps P Q t) (a : BitVec 16) (be : BitVec 2) : s.Keeps P Q (t.readControl a be) :=
  ite (h.controlRead _ _ _) ((h.controlRead _ _ _).afterRead _)

theorem beginReplicaRead (h : s.Keeps P Q t) (a : BitVec 16) (be : BitVec 2) : s.Keeps P Q (t.beginReplicaRead a be) := by
  have hread : s.Keeps P Q (t.beginCycle false a be 0 .read) := h.beginCycle_of_not_taken false a be 0 (by rfl)
  exact ite ((h.beginCycle_of_not_taken (R := Q) false a be 0 (by rfl)).drive _)
    (hread.quiet ((Quiet.refl _).requestGrant _)).waitForGrant

theorem storeControl (h : s.Keeps P Q t) (off : Nat) (be : BitVec 2) (data : Word) :
    s.Keeps P Q (t.storeControl off be data) := by
  have harg (i : Nat) : s.Keeps P Q (t.writeArg i be data) := by
    unfold State.writeArg
    split
    · exact h.modLp_of_same_cycle rfl rfl rfl
    · exact h
  unfold State.storeControl
  exact ite (harg _) (ite (ite (h.modMu fun hr => hr) h) (ite (h.modMu fun hr => hr) h))

theorem refuseWrite (h : s.Keeps P EveryWindow t) {w : WinId} (a : BitVec 16) (be : BitVec 2) (data : Word)
    : s.Keeps P EveryWindow (t.refuseWrite w a be data) := by
  have hrefused : s.Keeps P EveryWindow ((t.beginCycle true a be data .complete).recordRefusal w (accessAddr a be)) :=
    (h.beginCycle_of_not_taken true a be data (by rfl)).quiet ((Quiet.refl _).recordEvent _)
  simp only [State.refuseWrite]
  split
  · next hclaims =>
    simp only [Window.handsOff, Bool.and_eq_true, Window.isShare_iff, decide_eq_true_eq] at hclaims
    obtain ⟨⟨⟨hrole, hown⟩, -⟩, -⟩ := hclaims
    have hnot : (t.win w).ownership ≠ .owner := by rw [hown]; exact nofun
    exact hrefused.startClaim hrole hnot
  · exact hrefused

/-- R56, R62: only an OWNER's write is taken, and only when the maps exist. -/
theorem takeWrite (h : s.Keeps P EveryWindow t) {w : WinId} {page : Nat} {c : LocalCycle}
    (howner : (t.win w).ownership = .owner) (hmap : t.maps.ofLocalPage page = some w) (hidle : t.lp.cycle = none) :
    s.Keeps P EveryWindow (t.takeWrite w c) := by
  have hload (ht : t.TakenRoom EveryWindow) : ¬(t.lp.inReset = true ∨ t.lp.load ≠ .none) := fun hloading =>
    WindowMaps.localMap_ne_nil hmap (ht.2.2 hloading).1
  have hstaged {stage : Stage} (hstage : stage.takenFor = some w) (hnot : stage ≠ .allowedWrite w) :
      s.Keeps P EveryWindow (t.setStage c stage) :=
    h.setStage_of_owner hstage (fun _ _ hst => absurd hst hnot) (fun _ _ => howner) hload
  unfold State.takeWrite
  split
  · next hfits => exact (h.allowWrite hfits (by simp [hidle]) (fun _ _ => howner) hload).waitForGrant
  split
  · exact ((hstaged (stage := .overflowWrite w) rfl nofun).quiet ((Quiet.refl _).requestGrant _)).waitForGrant
  · exact (hstaged (stage := .heldWrite w 0) rfl nofun).setWait true

/-! ### Timers and commands -/

theorem firstOnline (h : s.Keeps P Q t) : s.Keeps P Q t.firstOnline := by
  unfold State.firstOnline
  refine (queueStartSweeps ?_).foldl (fun u w => of_quiet (Quiet.startWindow u w)) _
  exact h.modLi fun hr => hr

theorem claimExpires (h : s.Keeps P EveryWindow t) {w : WinId} (hclaiming : (t.win w).ownership = .claiming) :
    s.Keeps P EveryWindow (t.claimExpires w) := by
  simp only [State.claimExpires]
  split
  · next hattempts =>
    have hattempts' : (t.win w).claimAttempts < 3 := hattempts
    exact h.quiet (((Quiet.refl t).modWin ⟨rfl, rfl, rfl, rfl, fun ⟨hu, hr, hb, _⟩ => ⟨hu, hr, hb, hattempts'⟩⟩).makeDue _)
  split
  · have hsettled := (Quiet.refl t).settleWriter w
    have hown : ((t.settleWriter w).win w).ownership = .claiming := (hsettled.ownership w).trans hclaiming
    exact ((h.quiet hsettled).takeover (Window.shared_of_claiming hown) (by rw [hown]; exact nofun)).resumeHold
  · exact (h.endClaim hclaiming).quiet ((Quiet.refl _).recordEvent _)

theorem refreshWindow (h : s.Keeps P EveryWindow t) (w : WinId) : s.Keeps P EveryWindow (t.refreshWindow w) := by
  have hgap : t.Quiet (((t.settleWriter w).modWin w fun x => { x with retry := 0 }).enterGap w) :=
    (((Quiet.refl t).settleWriter w).modWin ⟨rfl, rfl, rfl, rfl, fun ⟨hu, _, hb, hc⟩ => ⟨hu, Nat.zero_le 3, hb, hc⟩⟩).enterGap w
  exact (h.quiet hgap).resumeHold

/-! ### SOFT_RESTART (R190) -/

theorem restartLine (h : s.Keeps P Q t) : s.Keeps P Q t.restartLine :=
  (h.modLi fun ⟨_, hrec, hdom⟩ => ⟨Nat.zero_le _, hrec, hdom⟩).enterListen

theorem restartHold (t : State) : t.Quiet t.restartHold := by
  simp only [State.restartHold]
  have hheld : t.Quiet (match (t.withdrawRequest .sweepReader).rh.work with
      | some wk => (t.withdrawRequest .sweepReader).endWriting wk
      | none => t.withdrawRequest .sweepReader) := by
    split
    · exact ((Quiet.refl t).withdrawRequest _).endWriting _
    · exact (Quiet.refl t).withdrawRequest _
  exact hheld.dropPageRead.trans ⟨rfl, Nat.zero_le _, rfl, rfl, rfl, rfl, rfl, id, fun _ => .refl _, id⟩

theorem emptyQueue (h : s.Keeps P Q t) (hidle : t.lp.cycle = none) : s.Keeps P Q t.emptyQueue := by
  have hempty {u : State} (hu : s.Keeps P Q u) (hcycle : u.lp.cycle = none) :
      s.Keeps P Q { u with pq := { entries := [], mergeHold := false } } :=
    hu.withQueue (fun _ _ => by simp [PostQueue.InRoom, postBytes]) (by simp [hcycle]) fun _ => id
  unfold State.emptyQueue
  split
  · exact hempty h hidle
  · have hmarked := (Quiet.refl t).markLosers
    exact (hempty (h.quiet hmarked) (by rw [hmarked.lp, hidle])).quiet (((Quiet.refl _).count _ _).recordEvent _)

/-- R152: the FORCED entries are of different windows, and the queue holds no other. -/
theorem restartOwnership (h : s.Keeps P Q t) {w : WinId} (hcurrent : t.se.current = none)
    (hqueue : w ∉ t.se.queue.map (·.1)) : s.Keeps P Q (t.restartOwnership w) := by
  simp only [State.restartOwnership]
  split
  · next hgranting =>
    have howner : s.Keeps P Q (t.modWin w fun y =>
        { y with ownership := .owner, grantee := none, returned := false, markTimer := t.freshMarkTimer }) :=
      h.modWin_of_shared rfl rfl (fun hr => hr) (Window.shared_of_granting hgranting)
        fun hQ => by cases hgranting.symm.trans hQ.2
    refine ite ((howner.quiet ((Quiet.refl _).recordEvent _)).modSe fun he => ?_) howner
    exact SweepEngine.append_inRoom he _ hqueue fun c hc => by cases hcurrent.symm.trans (Option.mem_def.1 hc)
  · next hclaiming => exact h.endClaim hclaiming
  all_goals exact h

theorem restartOwnership_se (t : State) (w : WinId) :
    (t.restartOwnership w).se.current = t.se.current ∧
      ∀ v : WinId, v ∈ (t.restartOwnership w).se.queue.map (·.1) → v = w ∨ v ∈ t.se.queue.map (·.1) := by
  simp only [State.restartOwnership]
  split
  · split
    · refine ⟨rfl, fun v hv => ?_⟩
      change v ∈ (t.se.queue ++ [(w, Origin.forced)]).map (·.1) at hv
      simpa [or_comm] using hv
    · exact ⟨rfl, fun _ => .inr⟩
  · rw [State.endClaim, State.modWin_se, ((Quiet.refl t).exitClaiming w).se]
    exact ⟨rfl, fun _ => .inr⟩
  all_goals exact ⟨rfl, fun _ => .inr⟩

theorem foldl_restartOwnership (h : s.Keeps P Q t) {l : List WinId} (hnodup : l.Nodup) (hcurrent : t.se.current = none)
    (hqueue : ∀ w ∈ l, w ∉ t.se.queue.map (·.1)) : s.Keeps P Q (l.foldl State.restartOwnership t) := by
  induction l generalizing t with
  | nil => exact h
  | cons w rest ih =>
    obtain ⟨hw, hrest⟩ := List.nodup_cons.1 hnodup
    obtain ⟨hcurrent', hqueue'⟩ := restartOwnership_se t w
    refine ih (h.restartOwnership hcurrent (hqueue w (by simp))) hrest (hcurrent'.trans hcurrent) fun v hv hmem => ?_
    rcases hqueue' v hmem with rfl | hmem
    · exact hw hv
    · exact hqueue v (by simp [hv]) hmem

/-- The windows and the rest after the sweep queue has been cleared. -/
theorem restartWindows (h : s.Keeps P Q t) (hqueue : t.se.queue = []) (hcurrent : t.se.current = none) :
    s.Keeps P Q ((t.restartContext 0).restartContext 1).restartOwnerships := by
  have hctx := (((Quiet.refl t).restartContext 0).restartContext 1).withdrawDue OwnerFrame.dropsAtRestart
  unfold State.restartOwnerships
  refine modSe (foldl_restartOwnership (h.quiet hctx) (by decide) ?_ fun w _ => ?_) SweepEngine.promote_inRoom
  · rw [hctx.se, hcurrent]
  · rw [hctx.se, hqueue]
    simp

theorem softRestart (h : s.Keeps P Q t) (hidle : t.lp.cycle = none) : s.Keeps P Q t.softRestart := by
  have hhold := restartHold t.restartLine
  have hcycle : t.restartLine.restartHold.lp.cycle = none := by
    rw [hhold.lp]
    exact hidle
  have hempty := (h.restartLine.quiet hhold).emptyQueue hcycle
  have hcleared := hempty.modSe (f := SweepEngine.clear) fun _ => ⟨by simp [SweepEngine.clear], by simp [SweepEngine.clear]⟩
  have hmessages {u : State} (hu : s.Keeps P Q u) : s.Keeps P Q
      ((u.modMu fun m => { m with outQueue := [] }).modLp fun lp => { lp with capture := none }) :=
    (hu.modMu fun ⟨_, hin⟩ => ⟨Nat.zero_le _, hin⟩).modLp_of_same_cycle rfl rfl rfl
  exact hmessages (hcleared.restartWindows rfl rfl)

/-! ### The load (R183 to R188) -/

/-- The local port changed while the load is on: no write is taken, and the part is not back in reset before the load is
off. -/
theorem modLp_of_loading (h : s.Keeps P Q t) {f : LocalPort → LocalPort} (hload : t.lp.inReset = true ∨ t.lp.load ≠ .none)
    (hreset : (t.lp.inReset = true → t.lp.load = .none) → (f t.lp).inReset = true → (f t.lp).load = .none)
    (hcycle : (f t.lp).cycle = t.lp.cycle) : s.Keeps P Q (t.modLp f) :=
  h.trans ⟨id, fun hr hu => ⟨hr, hreset hu.1, fun _ => hu.2 hload⟩, fun hl ht => by
    have hnone : ∀ c ∈ (f t.lp).cycle, c.stage.takenFor = none := by rw [hcycle]; exact (ht.2.2 hload).2
    refine ⟨hl, fun c hc w hw => ?_, hreset ht.2.1, fun _ => ⟨(ht.2.2 hload).1, hnone⟩⟩
    rw [hnone c hc] at hw
    cases hw⟩

theorem failLoad (h : s.Keeps P Q t) (r : LoadResult) (hload : t.lp.inReset = true ∨ t.lp.load ≠ .none) :
    s.Keeps P Q (t.failLoad r) :=
  (h.modLp_of_loading hload (fun _ _ => rfl) rfl).modLi fun hr => hr

end State.Keeps

theorem EventUnit.capture_moreEvents {e : EventUnit} (h : e.moreEvents ≤ 255) (f : EventFields) (t : BitVec 32)
    (loading : Bool) (v : BitVec 2) : (e.capture f t loading v).moreEvents ≤ 255 := by
  unfold EventUnit.capture
  split
  · exact Nat.min_le_left _ _
  · split <;> exact h

theorem EventUnit.captures_moreEvents {e : EventUnit} (h : e.moreEvents ≤ 255) (fs : List EventFields) (t : BitVec 32)
    (loading : Bool) (v : BitVec 2) : (e.captures fs t loading v).moreEvents ≤ 255 := by
  induction fs generalizing e with
  | nil => exact h
  | cons f rest ih => exact ih (EventUnit.capture_moreEvents h f t loading v)

theorem EventUnit.giveHeld_moreEvents (e : EventUnit) (v : BitVec 2) : (e.giveHeld v).moreEvents = e.moreEvents := by
  unfold EventUnit.giveHeld
  split <;> rfl

/-- A loaded window's ownership state is its role's. -/
theorem Window.load_roleHolds (x : Window) (d : Descriptor) (standing : Standing) (station : Station) :
    (x.load d standing station).RoleHolds := by
  simp only [Window.load, Window.RoleHolds, Window.role]
  constructor <;> intro h <;> simp [h]

/-- R188: a good load ends with the windows in their roles. No write is taken before it ends. -/
theorem State.acceptImage_keeps (s : State) (img : List Byte) (hload : s.lp.load = .image) :
    s.Keeps EveryWindow EveryWindow
      ((s.modLp fun lp => { lp with spiSelect := false, load := .none }).acceptImage img) := by
  have hloading : s.lp.inReset = true ∨ s.lp.load ≠ .none := .inr (by rw [hload]; exact nofun)
  have hreset (h : s.lp.inReset = true → s.lp.load = .none) : s.lp.inReset ≠ true := fun hr => by
    cases hload.symm.trans (h hr)
  have hwin (w : WinId) : ∃ standing : Standing,
      (((s.modLp fun lp => { lp with spiSelect := false, load := .none }).acceptImage img).win w) =
        (s.win w).load (imageDescriptor img w) standing (imageByte img 4) := by
    obtain ⟨standing, h, -⟩ := (s.modLp fun lp => { lp with spiSelect := false, load := .none }).windowsTaken_win img w
    rw [State.acceptImage_eq]
    exact ⟨standing, h⟩
  refine ⟨fun hcounts => ?_, fun _ hu => ⟨fun w => ?_, ?_⟩, fun hl ht => ?_⟩
  · obtain ⟨hslots, hout, hin, hev, hfaults, hrec, hdom, hcounts⟩ := hcounts
    have hcounts' (w : WinId) := hwin w
    rw [State.acceptImage_eq] at hcounts' ⊢
    refine ⟨hslots, hout, hin, ?_, hfaults, hrec, hdom, fun w => ?_⟩
    · exact (EventUnit.giveHeld_moreEvents _ _).trans_le (EventUnit.captures_moreEvents hev _ _ _ _)
    · obtain ⟨standing, hw⟩ := hcounts' w
      rw [hw]
      exact hcounts w
  · obtain ⟨standing, hw⟩ := hwin w
    rw [hw]
    exact Window.load_roleHolds _ _ _ _
  · rw [State.acceptImage_eq]
    exact ⟨fun _ => rfl, fun h => absurd (h.resolve_right fun hne => hne rfl) (hreset hu.1)⟩
  · have hnone : ∀ c ∈ s.lp.cycle, c.stage.takenFor = none := (ht.2.2 hloading).2
    rw [State.acceptImage_eq]
    refine ⟨hl, fun c hc w hw => ?_, fun _ => rfl, fun h => absurd (h.resolve_right fun hne => hne rfl) (hreset ht.2.1)⟩
    rw [hnone c hc] at hw
    cases hw

end Sys2Proof.Machine
end

section
/-!
Every step keeps the counts, the roles and the lists (O57, O58, O59): each command's meaning is a chain of the operations
above.
-/

namespace Sys2Proof.Machine

theorem State.held_keeps (s : State) : s.Keeps EveryWindow EveryWindow s.held := by
  obtain ⟨-, hcounts, hroles, hload, hlists, htaken⟩ := resetMeetsInvariants
  exact ⟨fun _ => hcounts, fun _ _ => ⟨hroles, hload⟩, fun _ _ => ⟨hlists, (takenWritesHaveRoom_iff _).1 htaken⟩⟩

theorem Window.tick_quiet (x : Window) : x.Quiet x.tick := by simp [Window.tick]

theorem State.win_map (s : State) (f : Window → Window) (w : WinId) :
    State.win { s with windows := s.windows.map f } w = f (s.win w) := by
  simp [State.win]

theorem LocalCycle.takenFor_tick (c : LocalCycle) : c.tick.stage.takenFor = c.stage.takenFor := by
  unfold LocalCycle.tick
  split
  · next h => rw [h]; rfl
  all_goals rfl

/-- A cycle that stands at an allowed write has no timer. -/
theorem LocalCycle.tick_of_allowed {c : LocalCycle} {w : WinId} (h : c.tick.stage = .allowedWrite w) : c.tick = c := by
  unfold LocalCycle.tick at h ⊢
  split at h
  · cases h
  all_goals rfl

namespace State.Keeps

variable {s t : State}

/-- One bt changes no queue, no role and no taken write but a held one's timer. -/
theorem advance (h : s.Keeps EveryWindow EveryWindow t) : s.Keeps EveryWindow EveryWindow t.advance := by
  have hline : s.Keeps EveryWindow EveryWindow (t.modLi fun _ => t.tickLine) := h.modLi fun ⟨hf, _, _⟩ => by
    refine ⟨hf, ?_, ?_⟩
    · simp only [State.tickLine, LineInterface.nextRecessive]
      split <;> simp [Config.yieldInterval]
    · simp only [State.tickLine, LineInterface.nextDominant]
      split <;> simp [Config.stuckRun]
  have hwindows : s.Keeps EveryWindow EveryWindow
      { t.modLi (fun _ => t.tickLine) with windows := t.windows.map Window.tick } :=
    hline.quiet ⟨rfl, le_rfl, rfl, rfl, rfl, rfl, rfl, id, fun w => by
      rw [show State.win { t.modLi (fun _ => t.tickLine) with windows := t.windows.map Window.tick } w =
        (t.win w).tick from t.win_map _ w]
      exact Window.tick_quiet _, id⟩
  have hcycle := hwindows.modLp (R := EveryWindow) (f := fun lp => { lp with cycle := lp.cycle.map LocalCycle.tick }) rfl rfl
    fun _ ht c hc w hw => by
      obtain ⟨c', hc', rfl⟩ := Option.map_eq_some_iff.1 hc
      rw [LocalCycle.takenFor_tick] at hw
      refine ⟨fun _ => ?_, fun hloading => ?_⟩
      · obtain ⟨hown, hroom⟩ := ht.1 c' hc' w hw trivial
        refine ⟨hown, fun hst => ?_⟩
        have hsame := LocalCycle.tick_of_allowed hst
        rw [hsame] at hst ⊢
        exact hroom hst
      · rw [(ht.2.2 hloading).2 c' hc'] at hw
        cases hw
  exact hcycle.quiet ((Quiet.refl _).of_eq rfl rfl rfl rfl rfl rfl rfl rfl rfl rfl)

theorem tick (h : s.Keeps EveryWindow EveryWindow t) : s.Keeps EveryWindow EveryWindow t.tick := by
  unfold State.tick
  split
  · exact h
  · split
    · exact h.quiet ((Quiet.refl _).of_eq rfl rfl rfl rfl rfl rfl rfl rfl rfl rfl)
    · exact h.advance

/-! ### The commands -/

theorem lineLost (h : s.Keeps EveryWindow EveryWindow t) : s.Keeps EveryWindow EveryWindow (t.modLi fun li =>
    { li with rx := li.rx.inFrame, recessiveRun := 0, dominantRun := max 1 li.dominantRun }) :=
  h.modLi fun ⟨hf, _, hd⟩ => ⟨hf, Nat.zero_le _, Nat.max_le.2 ⟨by decide, hd⟩⟩

theorem lineFaults (h : s.Keeps EveryWindow EveryWindow t) : s.Keeps EveryWindow EveryWindow (t.modLi fun li =>
    { li with rx := .hunt none, faults := min Config.faultLimit (li.faults + 1) }) :=
  h.modLi fun ⟨_, hr, hd⟩ => ⟨Nat.min_le_left _ _, hr, hd⟩

theorem closeFrame (h : s.Keeps EveryWindow EveryWindow t) (bits : List Bit) :
    s.Keeps EveryWindow EveryWindow (t.closeFrame bits) := by
  unfold State.closeFrame
  split
  · exact h.quiet ((Quiet.refl t).count _ _)
  · split
    · exact h.quiet ((Quiet.refl t).count _ _)
    · exact h.quiet ((Quiet.refl t).count _ _)
    · exact h.quiet ((Quiet.refl t).count _ _)
    · exact h.filterFrame _

end State.Keeps

/-- The outcome is a next state that keeps the invariants. -/
abbrev State.KeptBy (s : State) (o : Host.Outcome State Fault Refusal) : Prop :=
  ∃ t : State, o = .next t ∧ s.Keeps EveryWindow EveryWindow t

section
variable (s : State)

open State State.Keeps

/-! #### Power and the load -/

theorem execResetRelease_keeps : s.KeptBy (execResetRelease s) := by
  refine ⟨_, rfl, ?_⟩
  split
  · next hreset => exact (refl s).modLp_of_loading (.inl hreset) (fun _ h' => by cases h') rfl
  · exact refl s

theorem execConfigHeaderRead_keeps (marker length : Word) : s.KeptBy (execConfigHeaderRead marker length s) := by
  refine ⟨_, rfl, ?_⟩
  split
  · next hload =>
    have hloading : s.lp.inReset = true ∨ s.lp.load ≠ .none := .inr (by rw [hload]; exact nofun)
    refine ite ((refl s).failLoad _ hloading)
      (ite ((refl s).failLoad _ hloading) ((refl s).modLp_of_loading hloading (fun h' hr => ?_) rfl))
    cases hload.symm.trans (h' hr)
  · exact refl s

theorem execConfigImageRead_keeps (rest : List Byte) : s.KeptBy (execConfigImageRead rest s) := by
  refine ⟨_, rfl, ?_⟩
  split
  · next hload =>
    have hloading : s.lp.inReset = true ∨ s.lp.load ≠ .none := .inr (by rw [hload.1]; exact nofun)
    simp only
    split
    · next r _ => exact (refl s).failLoad r hloading
    · exact s.acceptImage_keeps _ hload.1
  · exact refl s

/-! #### The receiver -/

theorem execStuffViolation_keeps (cause : StuffCause) : s.KeptBy (execStuffViolation cause s) := by
  refine ⟨_, rfl, ?_⟩
  split
  · have hruns : s.Keeps EveryWindow EveryWindow (s.modLi fun li =>
        match cause with
        | .sevenDominant => (li.setRuns 0 (max 7 li.dominantRun)).toHunt
        | .missingAtClosing => (li.setRuns 0 1).toHunt) := (refl s).modLi fun ⟨hf, _, hd⟩ => by
      cases cause with
      | sevenDominant => exact ⟨hf, Nat.zero_le _, Nat.max_le.2 ⟨by decide, hd⟩⟩
      | missingAtClosing => exact ⟨hf, Nat.zero_le _, by simp [LineInterface.setRuns, LineInterface.toHunt]⟩
    exact ite hruns (hruns.quiet ((Quiet.refl _).count _ _))
  · exact refl s

theorem execAbort_keeps : s.KeptBy (execAbort s) := by
  refine ⟨_, rfl, ?_⟩
  split
  · have hruns : s.Keeps EveryWindow EveryWindow
        (s.modLi fun li => (li.setRuns (max 8 li.recessiveRun) 0).toHunt) :=
      (refl s).modLi fun ⟨hf, hr, _⟩ => ⟨hf, Nat.max_le.2 ⟨by decide, hr⟩, Nat.zero_le _⟩
    exact ite hruns (hruns.quiet ((Quiet.refl _).count _ _))
  · exact refl s

theorem execFrameReceived_keeps (stuffed : List Bit) : s.KeptBy (execFrameReceived stuffed s) := by
  refine ⟨_, rfl, ?_⟩
  split
  · have hruns : s.Keeps EveryWindow EveryWindow (s.modLi fun li => (li.setRuns 0 1).toHunt) :=
      (refl s).modLi fun ⟨hf, _, _⟩ => ⟨hf, Nat.zero_le _, by simp [LineInterface.setRuns, LineInterface.toHunt]⟩
    exact ite hruns (hruns.closeFrame _)
  · exact refl s

theorem execLineStuck_keeps : s.KeptBy (execLineStuck s) := by
  refine ⟨_, rfl, ?_⟩
  split
  · have hruns : s.Keeps EveryWindow EveryWindow (s.modLi fun li => { li.setRuns 0 Config.stuckRun with stuck := true }) :=
      (refl s).modLi fun ⟨hf, _, _⟩ => ⟨hf, Nat.zero_le _, le_refl 32⟩
    exact ite hruns (hruns.quiet ((Quiet.refl _).recordEvent _))
  · exact refl s

theorem execLineIdle_keeps : s.KeptBy (execLineIdle s) :=
  ⟨_, rfl, ite ((refl s).modLi fun ⟨hf, hr, _⟩ =>
    ⟨hf, Nat.max_le.2 ⟨by decide, hr⟩, Nat.zero_le _⟩) (refl s)⟩

/-! #### Grants and local cycles -/

theorem execRecordWriteGrant_keeps : s.KeptBy (execRecordWriteGrant s) := by
  refine ⟨_, rfl, ?_⟩
  split
  · exact ite (continueFrame ((refl s).quiet
      ((((Quiet.refl s).writerEffect _).setWork _).takeRecords _ _ _ _ _).releaseGrant)) (refl s)
  all_goals exact refl s

theorem execPageWriteGrant_keeps : s.KeptBy (execPageWriteGrant s) := by
  refine ⟨_, rfl, ?_⟩
  split
  · exact ite (continueFrame ((refl s).quiet (((Quiet.refl s).writerEffect _).setWork _).releaseGrant)) (refl s)
  all_goals exact refl s

theorem execDeferredRecordGrant_keeps : s.KeptBy (execDeferredRecordGrant s) := by
  refine ⟨_, rfl, ?_⟩
  split
  · exact ite (continueFrame ((refl s).quiet
      ((((Quiet.refl s).writerEffect _).setWork _).applyDeferred _ _).releaseGrant)) (refl s)
  all_goals exact refl s

theorem execLocalReadGrant_keeps : s.KeptBy (execLocalReadGrant s) := by
  refine ⟨_, rfl, ?_⟩
  split
  · exact refl s
  · exact ite (((((refl s).setStage_of_not_taken _ (by rfl)).drive _).setWait _).quiet (Quiet.refl _).releaseGrant) (refl s)

theorem execLocalWritePrivate_keeps (a : BitVec 16) (be : BitVec 2) (data : Word) :
    s.KeptBy (execLocalWritePrivate a be data s) := by
  have hprivate : s.Keeps EveryWindow EveryWindow (s.beginCycle true a be data .privateWrite) :=
    (refl s).beginCycle_of_not_taken (Q := EveryWindow) true a be data (by rfl)
  exact ⟨_, rfl, ite (ite ((refl s).beginCycle_of_not_taken (Q := EveryWindow) true a be data (by rfl))
    (hprivate.quiet ((Quiet.refl _).requestGrant _)).waitForGrant) (refl s)⟩

theorem execLocalWriteWindow_keeps (a : BitVec 16) (be : BitVec 2) (data : Word) :
    s.KeptBy (execLocalWriteWindow a be data s) := by
  refine ⟨_, rfl, ?_⟩
  split
  · exact refl s
  · next w hmap =>
    split
    · next hport =>
      have hidle : s.lp.cycle = none := ((portFree_iff_idlePort s).1 (Bool.and_eq_true_iff.1 hport).1).2
      split
      · exact (refl s).beginCycle_of_not_taken (Q := EveryWindow) true a be data (by rfl)
      split
      · next howner => exact (refl s).takeWrite howner hmap hidle
      · exact (refl s).refuseWrite a be data
    · exact refl s

theorem execLocalWriteGrant_keeps : s.KeptBy (execLocalWriteGrant s) := by
  refine ⟨_, rfl, ?_⟩
  split
  · exact refl s
  · next c hc => exact ite ((refl s).endLocalWrite hc) (refl s)

theorem execOverflowWriteGrant_keeps : s.KeptBy (execOverflowWriteGrant s) := by
  refine ⟨_, rfl, ?_⟩
  split
  · exact refl s
  · next c hc => exact ite ((refl s).endLocalWrite hc) (refl s)

theorem execPostWaitExpiry_keeps : s.KeptBy (execPostWaitExpiry s) := by
  refine ⟨_, rfl, ?_⟩
  split
  · exact refl s
  · next c hc =>
    split
    · next w n hstage =>
      have htaken : c.stage.takenFor = some w := by rw [hstage]; rfl
      refine ((refl s).setStage_of_owner (c := c) (stage := .overflowWrite w) rfl (fun _ _ hst => by cases hst)
        (fun ht _ => (ht.1 c hc w htaken trivial).1) fun ht hloading => ?_).quiet ((Quiet.refl _).requestGrant _)
      rw [(ht.2.2 hloading).2 c hc] at htaken
      cases htaken
    all_goals exact refl s

theorem execLocalCycleAbandon_keeps : s.KeptBy (execLocalCycleAbandon s) := by
  refine ⟨_, rfl, ?_⟩
  split
  · exact refl s
  · next c hc => exact ite ((refl s).endCycle hc) (refl s)

theorem execLocalCycleEnd_keeps : s.KeptBy (execLocalCycleEnd s) := by
  refine ⟨_, rfl, ?_⟩
  split
  · exact refl s
  · next c hc => exact ite (refl s) ((refl s).endCycle hc)

/-! #### Transmission -/

theorem execTransmitStart_keeps : s.KeptBy (execTransmitStart s) := by
  refine ⟨_, rfl, ?_⟩
  split
  · split
    · exact refl s
    · next o ho => exact ((refl s).assembled ho).quiet ((Quiet.refl _).setTx _)
  · exact refl s

theorem execArbitrationWon_keeps : s.KeptBy (execArbitrationWon s) := by
  refine ⟨_, rfl, ?_⟩
  split
  · exact (refl s).quiet ((Quiet.refl s).setTx _)
  all_goals exact refl s

theorem execArbitrationLost_keeps : s.KeptBy (execArbitrationLost s) := by
  refine ⟨_, rfl, ?_⟩
  split
  · exact (((refl s).releaseLine _).quiet ((Quiet.refl _).count _ _)).lineLost
  all_goals exact refl s

theorem execTransmitFault_keeps : s.KeptBy (execTransmitFault s) := by
  refine ⟨_, rfl, ?_⟩
  split
  · exact refl s
  · next f _ =>
    have hfault : s.Keeps EveryWindow EveryWindow (((s.releaseLine f).count .txFaults).modLi fun li =>
        { li with rx := .hunt none, faults := min Config.faultLimit (li.faults + 1) }) :=
      (((refl s).releaseLine f).quiet ((Quiet.refl _).count _ _)).lineFaults
    exact ite hfault.enterFaulted hfault

theorem execFrameCompleted_keeps : s.KeptBy (execFrameCompleted s) := by
  refine ⟨_, rfl, ?_⟩
  split
  · have hidle : s.Keeps EveryWindow EveryWindow (s.modLi fun li =>
        { li with tx := .idle, faults := 0, recoveredOnce := false, yield := true, rx := .hunt none, recessiveRun := 0,
                  dominantRun := 1 }) := (refl s).modLi fun _ => ⟨Nat.zero_le _, Nat.zero_le _, (by decide : 1 ≤ 32)⟩
    exact ((hidle.quiet (Quiet.refl _).dropPageRead).tellSource _).quiet (Quiet.refl _).settleGrants
  all_goals exact refl s

/-! #### Timers -/

theorem execJoinTimerExpiry_keeps : s.KeptBy (execJoinTimerExpiry s) := by
  have honline : s.Keeps EveryWindow EveryWindow (s.modLi fun li => { li with line := .online, joinTimer := .stopped }) :=
    (refl s).modLi fun hr => hr
  exact ⟨_, rfl, ite (ite honline honline.firstOnline) (refl s)⟩

theorem execRefreshTimeoutExpiry_keeps (w : WinId) : s.KeptBy (execRefreshTimeoutExpiry w s) := by
  refine ⟨_, rfl, ?_⟩
  split
  · next hwaits =>
    have hsettled := (Quiet.refl s).settleWriter w
    have hfollowed : (s.win w).followed = true := by
      simp only [Window.waitsTimeout, Bool.and_eq_true] at hwaits
      exact hwaits.1.1
    refine (((refl s).quiet hsettled).failAttempt ?_).resumeHold
    simpa only [Window.followed, hsettled.ownership] using hfollowed
  · exact refl s

theorem execClaimTimerExpiry_keeps (w : WinId) : s.KeptBy (execClaimTimerExpiry w s) := by
  refine ⟨_, rfl, ?_⟩
  split
  · next hclaims => exact (refl s).claimExpires hclaims.1
  · exact refl s

/-! #### Commands -/

theorem execRefresh_keeps : s.KeptBy (execRefresh s) := by
  refine ⟨_, rfl, ?_⟩
  split
  · split
    · exact (refl s).refuse _ _
    · exact ite ((refl s).refuse _ _) (ite ((refl s).refuse _ _) (((refl s).refreshWindow _).done _))
  · exact refl s

theorem execClaim_keeps : s.KeptBy (execClaim s) := by
  refine ⟨_, rfl, ?_⟩
  split
  · split
    · exact (refl s).refuse _ _
    · next w _ =>
      split
      · exact (refl s).refuse _ _
      · next hshare =>
        split
        · exact (refl s).refuse _ _
        · next hown =>
          have hrole : (s.win w).role = some .share := Window.isShare_iff.1 (by simpa using hshare)
          have hnot : (s.win w).ownership ≠ .owner := by rw [not_not.1 hown]; exact nofun
          exact ite ((refl s).refuse _ _) (((refl s).startClaim hrole hnot).done _)
  · exact refl s

theorem execKeep_keeps : s.KeptBy (execKeep s) := by
  refine ⟨_, rfl, ?_⟩
  split
  · split
    · exact (refl s).refuse _ _
    · exact ite ((refl s).refuse _ _) (ite ((refl s).refuse _ _)
        (((refl s).quiet ((Quiet.refl s).modWin (by simp))).done _))
  · exact refl s

theorem execMessageSend_keeps : s.KeptBy (execMessageSend s) := by
  refine ⟨_, rfl, ite (ite ((refl s).refuse _ _) (ite ((refl s).refuse _ _) ?_)) (refl s)⟩
  split
  · exact (refl s).refuse _ _
  · next hroom =>
    have hroom' : ¬4 ≤ s.mu.outQueue.length := hroom
    exact ((refl s).modMu fun ⟨_, hin⟩ => ⟨by simp; omega, hin⟩).done _

theorem execMessagePop_keeps : s.KeptBy (execMessagePop s) :=
  ⟨_, rfl, ite (ite ((refl s).refuse _ _) (((refl s).modMu fun ⟨hout, hin⟩ =>
    ⟨hout, (List.tail_sublist _).length_le.trans hin⟩).done _)) (refl s)⟩

theorem execLineResume_keeps : s.KeptBy (execLineResume s) := by
  refine ⟨_, rfl, ?_⟩
  split
  · split
    · exact ((refl s).modLi fun hr => hr).done _
    · exact (((refl s).modLi fun ⟨_, hr, hd⟩ => ⟨Nat.zero_le _, hr, hd⟩).enterListen).done _
    all_goals exact (refl s).refuse _ _
  · exact refl s

theorem execSoftRestart_keeps : s.KeptBy (execSoftRestart s) := by
  refine ⟨_, rfl, ?_⟩
  split
  · next hport =>
    exact ite (((refl s).softRestart ((portFree_iff_idlePort s).1 hport).2).done _) ((refl s).refuse _ _)
  · exact refl s

end

open State State.Keeps in
theorem exec_keeps (c : Instr) (s : State) : s.KeptBy (exec c s) := by
  have h := refl (P := EveryWindow) s
  have hq := State.Quiet.refl s
  cases c with
  | powerOn => exact ⟨_, rfl, s.held_keeps⟩
  | reset => exact ⟨_, rfl, s.held_keeps⟩
  | resetRelease => exact execResetRelease_keeps s
  | configHeaderRead => exact execConfigHeaderRead_keeps s _ _
  | configImageRead => exact execConfigImageRead_keeps s _
  | openingDelimiter => exact ⟨_, rfl, ite (h.modLi fun ⟨hf, _, _⟩ => ⟨hf, Nat.zero_le _, by simp [LineInterface.setRuns]⟩) h⟩
  | stuffViolation => exact execStuffViolation_keeps s _
  | abort => exact execAbort_keeps s
  | frameReceived => exact execFrameReceived_keeps s _
  | recordWriteGrant => exact execRecordWriteGrant_keeps s
  | pageWriteGrant => exact execPageWriteGrant_keeps s
  | deferredRecordGrant => exact execDeferredRecordGrant_keeps s
  | localReplicaRead => exact ⟨_, rfl, ite (ite (h.beginReplicaRead _ _) (h.readControl _ _)) h⟩
  | localReadGrant => exact execLocalReadGrant_keeps s
  | localWritePrivate => exact execLocalWritePrivate_keeps s _ _ _
  | localWriteWindow => exact execLocalWriteWindow_keeps s _ _ _
  | localWriteGrant => exact execLocalWriteGrant_keeps s
  | postWaitExpiry => exact execPostWaitExpiry_keeps s
  | overflowWriteGrant => exact execOverflowWriteGrant_keeps s
  | localCycleAbandon => exact execLocalCycleAbandon_keeps s
  | sweepPageReadGrant => exact ⟨_, rfl, ite (h.quiet (hq.setTx _).releaseGrant) h⟩
  | lineStuck => exact execLineStuck_keeps s
  | lineIdle => exact execLineIdle_keeps s
  | yieldIntervalExpiry => exact ⟨_, rfl, ite (h.modLi fun ⟨hf, _, _⟩ => ⟨hf, le_refl 48, Nat.zero_le _⟩) h⟩
  | transmitStart => exact execTransmitStart_keeps s
  | arbitrationLost => exact execArbitrationLost_keeps s
  | transmitFault => exact execTransmitFault_keeps s
  | frameCompleted => exact execFrameCompleted_keeps s
  | joinTimerExpiry => exact execJoinTimerExpiry_keeps s
  | recoveryTimerExpiry => exact ⟨_, rfl, ite (h.modLi fun ⟨_, hr, hd⟩ => ⟨Nat.zero_le _, hr, hd⟩).enterListen h⟩
  | markTimerExpiry => exact ⟨_, rfl, ite (h.quiet (hq.modWin (by simp))) h⟩
  | requestDelayExpiry => exact ⟨_, rfl, ite (h.quiet (hq.requestDelayOver _)) h⟩
  | refreshTimeoutExpiry => exact execRefreshTimeoutExpiry_keeps s _
  | claimTimerExpiry => exact execClaimTimerExpiry_keeps s _
  | refresh => exact execRefresh_keeps s
  | claim => exact execClaim_keeps s
  | keep => exact execKeep_keeps s
  | ackUpdates => exact ⟨_, rfl, ite ((h.quiet (hq.clearUpdates _)).done _) h⟩
  | notifyAck => exact ⟨_, rfl, ite ((h.modEn fun he => he).done _) h⟩
  | clearEvent => exact ⟨_, rfl, ite ((h.modEn fun _ => Nat.zero_le _).done _) h⟩
  | clearCounters => exact ⟨_, rfl, ite ((h.modEn fun he => he).done _) h⟩
  | probe => exact ⟨_, rfl, ite (ite (h.refuse _ _) (h.reply _ _ _ _)) h⟩
  | messageSend => exact execMessageSend_keeps s
  | messagePop => exact execMessagePop_keeps s
  | lineHalt => exact ⟨_, rfl, ite (ite ((h.modLi fun hr => hr).done _) (h.refuse _ _)) h⟩
  | lineResume => exact execLineResume_keeps s
  | softRestart => exact execSoftRestart_keeps s
  | unknownCommand => exact ⟨_, rfl, ite (h.refuse _ _) h⟩
  | maskWordWrite =>
    have hcycle := h.controlCycle (R := EveryWindow) true
    exact ⟨_, rfl, ite (ite ((hcycle _ _ _).modEn fun he => he) (hcycle _ _ _)) h⟩
  | lineTimeLowRead => exact ⟨_, rfl, ite (ite (h.controlRead _ _ _) (h.controlRead _ _ _).captureTime) h⟩
  | lineTimeHighRead => exact ⟨_, rfl, ite (ite (h.controlRead _ _ _) (h.controlRead _ _ _).releaseTime) h⟩
  | statusRecordFirstRead => exact ⟨_, rfl, ite (ite (h.controlRead _ _ _) ((h.controlRead _ _ _).captureRecord _)) h⟩
  | statusRecordWordRead => exact ⟨_, rfl, ite (h.controlRead _ _ _) h⟩
  | controlWrite => exact ⟨_, rfl, ite ((h.controlCycle (R := EveryWindow) _ _ _ _).storeControl _ _ _) h⟩
  | arbitrationWon => exact execArbitrationWon_keeps s
  | localCycleEnd => exact execLocalCycleEnd_keeps s

/-! ### The step -/

/-- A step keeps the invariants: it is one bt or one command, and a command's queue belongs to none of them. -/
theorem step_keeps {s t : State} (h : step s = .next t) : s.Keeps EveryWindow EveryWindow t := by
  cases hpending : s.pending with
  | nil =>
    rw [step_of_empty hpending] at h
    obtain rfl := Host.Outcome.next.inj h
    exact (State.Keeps.refl s).tick
  | cons c rest =>
    rw [step_of_front hpending] at h
    obtain ⟨u, hu, hkeeps⟩ := exec_keeps c { s with pending := rest }
    obtain rfl := Host.Outcome.next.inj (hu.symm.trans h)
    have hqueue : s.Quiet { s with pending := rest } := (State.Quiet.refl s).of_eq rfl rfl rfl rfl rfl rfl rfl rfl rfl rfl
    exact ((State.Keeps.refl s).quiet hqueue).trans hkeeps

/-- Settles O57. -/
theorem stepKeepsCountsBounded : Obligations.StepKeepsCountsBounded := fun _ _ hcounts hstep =>
  (step_keeps hstep).counts hcounts

/-- Settles O58. -/
theorem stepKeepsRolesAndLoad : Obligations.StepKeepsRolesAndLoad := fun _ _ hroles hload hstep =>
  (step_keeps hstep).roles hroles hload

/-- Settles O59. -/
theorem stepKeepsListsBounded : Obligations.StepKeepsListsBounded := fun s t hlists htaken hstep => by
  rw [takenWritesHaveRoom_iff] at htaken ⊢
  exact (step_keeps hstep).room hlists htaken

end Sys2Proof.Machine
end

section
/-!
Settled here: power-on, reset and the good load with its parameters, windows, events and maps (R39 to R47, R49, R158, R183
to R188).
-/

namespace Sys2Proof.Machine

/-! ### Power-on and RESET (R183) -/

/-- Settles O5. -/
theorem powerOnAndResetGiveInitialValues : Obligations.PowerOnAndResetGiveInitialValues := by
  refine ⟨fun s => ⟨rfl, rfl, fun hreset => ?_⟩, ?_⟩
  · simp [exec, execResetRelease, hreset]
    rfl
  · exact ⟨rfl, by decide, ⟨rfl, rfl, fun _ => rfl, rfl, rfl, rfl⟩, ⟨rfl, rfl, by decide⟩, ⟨rfl, rfl, by decide, rfl, rfl, rfl, rfl⟩,
      ⟨rfl, rfl, by decide, rfl⟩, ⟨rfl, rfl, rfl, rfl, rfl, rfl, rfl, rfl, rfl, rfl⟩, rfl, rfl, rfl, rfl, rfl, rfl, rfl, rfl, rfl, rfl, rfl, rfl, rfl⟩

/-! ### The station parameters (R187) -/

theorem byte_le (b : Byte) : b.toNat ≤ 255 := by have := b.isLt; omega

/-- A 16-bit parameter whose range ends at 255 is in range when its more significant byte is 0. -/
theorem append_le_255_iff (high low : Byte) : (high ++ low : Word).toNat ≤ 255 ↔ high = 0 := by
  have htoNat : (high ++ low : Word).toNat = high.toNat * 2 ^ 8 + low.toNat := by
    rw [BitVec.toNat_append, ← Nat.shiftLeft_add_eq_or_of_lt low.isLt, Nat.shiftLeft_eq]
  have hzero : high = 0 ↔ high.toNat = 0 := BitVec.toNat_inj.symm
  have := low.isLt
  rw [htoNat, hzero]
  omega

theorem append_toNat_of_zero {high low : Byte} (h : high = 0) : (high ++ low : Word).toNat = low.toNat := by
  rw [BitVec.toNat_append, h]
  simp

/-- A bit of a set that is built bit by bit. -/
theorem getLsbD_foldl_or {n : Nat} (l : List Nat) (init : BitVec n) {k : Nat} (hk : k < n) :
    (l.foldl (fun (acc : BitVec n) i => acc ||| (1 <<< i)) init).getLsbD k = (init.getLsbD k || decide (k ∈ l)) := by
  induction l generalizing init with
  | nil => simp
  | cons i rest ih =>
    have hbit : (BitVec.ofNat n (1 <<< i)).getLsbD k = decide (k = i) := by
      rw [BitVec.getLsbD_ofNat, Nat.one_shiftLeft, Nat.testBit_two_pow]
      simp [hk, eq_comm]
    rw [List.foldl_cons, ih, BitVec.natCast_eq_ofNat, BitVec.getLsbD_or, hbit, Bool.or_assoc]
    simp [List.mem_cons, Bool.decide_or]

/-- R187: the value in force of a parameter, by its place. -/
theorem paramValue_eq (img : List Byte) {i v low high default : Nat} (h : (defaultable img)[i]? = some (v, low, high, default)) :
    paramValue img i = if low ≤ v ∧ v ≤ high then v else default := by
  simp only [paramValue, h, inForce]

theorem mem_defaultedParams_iff (img : List Byte) {i v low high default : Nat} (hi : i < 9)
    (h : (defaultable img)[i]? = some (v, low, high, default)) : i ∈ defaultedParams img ↔ v < low ∨ high < v := by
  simp only [defaultedParams, List.mem_filter, List.mem_range, hi, h, outOfRange, true_and, Bool.not_eq_true',
    Bool.and_eq_false_iff, decide_eq_false_iff_not, not_le]

theorem mem_defaultedFilters_iff (img : List Byte) {i : Nat} :
    i ∈ defaultedFilters img ↔ i < 6 ∧ 1 < (imageByte img (210 + 3 * i)).toNat := by
  simp [defaultedFilters, filterDefaulted]

/-- R181: a parameter's bit of the defaulted set. -/
theorem defaultedSet_getLsbD (img : List Byte) {k : Nat} (hk : k < 9) :
    (defaultedSet img).getLsbD k = decide (k ∈ defaultedParams img) := by
  have hinit : (if (defaultedFilters img).isEmpty then (0 : BitVec 10) else BitVec.ofNat 10 (1 <<< 9)).getLsbD k = false := by
    split
    · simp
    · rw [BitVec.getLsbD_ofNat, Nat.one_shiftLeft, Nat.testBit_two_pow]
      simp [hk.ne']
  have hfold := getLsbD_foldl_or (defaultedParams img)
    (if (defaultedFilters img).isEmpty then (0 : BitVec 10) else BitVec.ofNat 10 (1 <<< 9)) (hk.trans (by decide))
  rw [hinit, Bool.false_or] at hfold
  exact hfold

theorem defaultedSet_getLsbD_filters (img : List Byte) :
    (defaultedSet img).getLsbD 9 = true ↔ ∃ i : Fin 6, 1 < (imageByte img (210 + 3 * i.val)).toNat := by
  have hnot : 9 ∉ defaultedParams img := by simp [defaultedParams]
  have hfold := getLsbD_foldl_or (defaultedParams img)
    (if (defaultedFilters img).isEmpty then (0 : BitVec 10) else BitVec.ofNat 10 (1 <<< 9)) (by decide : 9 < 10)
  rw [decide_eq_false hnot, Bool.or_false] at hfold
  rw [show (defaultedSet img).getLsbD 9 = _ from hfold]
  split
  · next hempty =>
    rw [List.isEmpty_iff] at hempty
    refine ⟨fun h => absurd h (by decide), fun ⟨i, hi⟩ => ?_⟩
    have := (mem_defaultedFilters_iff img (i := i.val)).2 ⟨i.isLt, hi⟩
    simp [hempty] at this
  · next hempty =>
    refine ⟨fun _ => ?_, fun _ => by decide⟩
    obtain ⟨i, hi⟩ := List.exists_mem_of_ne_nil _ (fun h => hempty (List.isEmpty_iff.2 h))
    obtain ⟨hlt, h⟩ := (mem_defaultedFilters_iff img).1 hi
    exact ⟨⟨i, hlt⟩, h⟩

/-! ### A good load (R187, R188) -/

/-- The state the image's windows are taken into. -/
abbrev State.loadEnded (s : State) : State := s.modLp fun lp => { lp with spiSelect := false, load := .none }

/-- The bytes behind marker and length, by their offset from the first of them. -/
theorem imageByte_rest (rest : List Byte) {i j : Nat} (h : i = j + 4) : imageByte (wholeImage rest) i = rest.getD j 0 := by
  rw [h, imageByte_wholeImage]

section Params
variable (rest : List Byte)

/-- R187: a byte parameter whose range ends at 255 is defaulted at 0 alone, one whose range starts at 0 above its end. -/
theorem paramValue_low {i : Nat} {b : Byte} {default : Nat}
    (h : (defaultable (wholeImage rest))[i]? = some (b.toNat, 1, 255, default)) :
    paramValue (wholeImage rest) i = if 1 ≤ b.toNat then b.toNat else default := by
  rw [paramValue_eq _ h]
  simp [byte_le]

theorem paramValue_high {i v high default : Nat} (h : (defaultable (wholeImage rest))[i]? = some (v, 0, high, default)) :
    paramValue (wholeImage rest) i = if v ≤ high then v else default := by
  rw [paramValue_eq _ h]
  simp

theorem paramValue_word {i : Nat} {high low : Byte} {default : Nat}
    (h : (defaultable (wholeImage rest))[i]? = some ((high ++ low : Word).toNat, 0, 255, default)) :
    paramValue (wholeImage rest) i = if high = 0 then low.toNat else default := by
  rw [paramValue_high _ h]
  simp only [append_le_255_iff]
  split
  · next hzero => exact append_toNat_of_zero hzero
  · rfl

theorem ofNat_paramValue_toNat {i v default : Nat} (h : (defaultable (wholeImage rest))[i]? = some (v, 0, 3, default))
    (hdefault : default ≤ 3) :
    (BitVec.ofNat 2 (paramValue (wholeImage rest) i)).toNat = if v ≤ 3 then v else default := by
  rw [paramValue_high _ h, BitVec.toNat_ofNat]
  split <;> omega

/-- R181, R187: the defaulted parameters by the image's bytes. -/
theorem defaultedSet_params (k : Fin 9) : (defaultedSet (wholeImage rest)).getLsbD k.val =
    [decide (3 < (rest.getD 3 0).toNat), decide (31 < (rest.getD 4 0).toNat), decide (rest.getD 5 0 = 0),
      decide (rest.getD 6 0 ≠ 0), decide (rest.getD 8 0 = 0), decide (rest.getD 9 0 = 0), decide (rest.getD 10 0 ≠ 0),
      decide (3 < (rest.getD 12 0).toNat), decide (3 < (rest.getD 13 0).toNat)].getD k.val false := by
  have hhigh {i v high default : Nat} (hi : i < 9)
      (h : (defaultable (wholeImage rest))[i]? = some (v, 0, high, default)) :
      decide (i ∈ defaultedParams (wholeImage rest)) = decide (high < v) := by
    simp [mem_defaultedParams_iff _ hi h]
  have hlow {i default : Nat} {b : Byte} (hi : i < 9)
      (h : (defaultable (wholeImage rest))[i]? = some (b.toNat, 1, 255, default)) :
      decide (i ∈ defaultedParams (wholeImage rest)) = decide (b = 0) := by
    have hzero : b = 0 ↔ b.toNat = 0 := BitVec.toNat_inj.symm
    have hle := byte_le b
    refine decide_eq_decide.2 ((mem_defaultedParams_iff _ hi h).trans ?_)
    rw [hzero]
    omega
  have hword {i default : Nat} {high low : Byte} (hi : i < 9)
      (h : (defaultable (wholeImage rest))[i]? = some ((high ++ low : Word).toNat, 0, 255, default)) :
      decide (i ∈ defaultedParams (wholeImage rest)) = decide (high ≠ 0) := by
    rw [hhigh hi h]
    exact decide_eq_decide.2 (not_le.symm.trans (append_le_255_iff high low).not)
  rw [defaultedSet_getLsbD _ k.isLt]
  match k with
  | 0 => exact hhigh (by decide) rfl
  | 1 => exact hhigh (by decide) rfl
  | 2 => exact hlow (by decide) rfl
  | 3 => exact hword (by decide) rfl
  | 4 => exact hlow (by decide) rfl
  | 5 => exact hlow (by decide) rfl
  | 6 => exact hword (by decide) rfl
  | 7 => exact hhigh (by decide) rfl
  | 8 => exact hhigh (by decide) rfl

end Params

/-- The descriptor that stands in the image, by its bytes. -/
theorem imageDescriptor_wholeImage (rest : List Byte) (w : WinId) :
    let byte (i : Nat) : Byte := rest.getD (14 + 12 * w.val + i) 0
    imageDescriptor (wholeImage rest) w =
      { enable := (byte 0).getLsbD 0, roleCode := byte 1, domain := byte 2, lineBase := byte 3 ++ byte 4,
        pageCount := byte 5, localBase := byte 6, owner := byte 7, notifyVector := (byte 8).setWidth 2,
        notifyModeCode := byte 9, autoClaim := (byte 10).getLsbD 0, takeoverPermitted := (byte 11).getLsbD 0 } := by
  have hbyte (i : Nat) : imageByte (wholeImage rest) (18 + 12 * w.val + i) = rest.getD (14 + 12 * w.val + i) 0 :=
    imageByte_rest rest (by omega)
  have h0 : imageByte (wholeImage rest) (18 + 12 * w.val) = _ := hbyte 0
  have h4 : imageByte (wholeImage rest) (18 + 12 * w.val + 3 + 1) = _ := hbyte 4
  simp only [imageDescriptor, hbyte, h0, h4, imageWord, lowBit, wordOf]

theorem imageFilter_wholeImage (rest : List Byte) (i : Nat) :
    imageFilter (wholeImage rest) i =
      { enable := decide (rest.getD (206 + 3 * i) 0 = 1), kind := rest.getD (207 + 3 * i) 0,
        subkind := rest.getD (208 + 3 * i) 0 } := by
  have h0 : imageByte (wholeImage rest) (210 + 3 * i) = rest.getD (206 + 3 * i) 0 := imageByte_rest rest (by omega)
  have h1 : imageByte (wholeImage rest) (210 + 3 * i + 1) = rest.getD (207 + 3 * i) 0 := imageByte_rest rest (by omega)
  have h2 : imageByte (wholeImage rest) (210 + 3 * i + 2) = rest.getD (208 + 3 * i) 0 := imageByte_rest rest (by omega)
  simp only [imageFilter, h0, h1, h2]

/-- Recording events leaves the counters and the masks as they are. -/
theorem EventUnit.captures_frame (e : EventUnit) (fs : List EventFields) (t : BitVec 32) (loading : Bool) (v : BitVec 2) :
    (e.captures fs t loading v).counters = e.counters ∧ (e.captures fs t loading v).sticky = e.sticky ∧
      (e.captures fs t loading v).mask = e.mask := by
  induction fs generalizing e with
  | nil => exact ⟨rfl, rfl, rfl⟩
  | cons f rest ih =>
    have hone : (e.capture f t loading v).counters = e.counters ∧ (e.capture f t loading v).sticky = e.sticky ∧
        (e.capture f t loading v).mask = e.mask := by
      unfold EventUnit.capture
      split
      · exact ⟨rfl, rfl, rfl⟩
      · split <;> exact ⟨rfl, rfl, rfl⟩
    obtain ⟨hcounters, hsticky, hmask⟩ := ih (e.capture f t loading v)
    exact ⟨hcounters.trans hone.1, hsticky.trans hone.2.1, hmask.trans hone.2.2⟩

theorem EventUnit.giveHeld_frame (e : EventUnit) (v : BitVec 2) :
    (e.giveHeld v).counters = e.counters ∧ (e.giveHeld v).sticky = e.sticky ∧ (e.giveHeld v).mask = e.mask := by
  unfold EventUnit.giveHeld
  split <;> exact ⟨rfl, rfl, rfl⟩

/-- R49: a loaded window: its descriptor, and the run-time values its role gives it. -/
theorem Window.load_spec {x y : Window} {d : Descriptor} {standing : Standing} {station : Station}
    (hy : y = x.load d standing station) (hoff : d.enable = false ↔ standing = .off) :
    y = { x with desc := d, standing := y.standing, ownership := y.ownership, recordedOwner := y.recordedOwner } ∧
      (y.role = some .own → y.ownership = .owner ∧ y.recordedOwner = station) ∧
      (y.role ≠ some .own → y.ownership = .follower ∧ y.recordedOwner = y.desc.owner) ∧
      (y.desc.enable = false ↔ y.standing = .off) := by
  subst hy
  simp only [Window.load, Window.role]
  exact ⟨trivial, fun h => by simp [h], fun h => by simp [h], hoff⟩

/-- Settles O7. -/
theorem goodLoadTakesTheImage : Obligations.GoodLoadTakesTheImage := by
  intro s rest hload hlength hpasses
  refine ⟨_, exec_configImageRead_of_passes hload hlength hpasses, ?_⟩
  have hwin (w : WinId) := s.loadEnded.windowsTaken_win (wholeImage rest) w
  rw [State.acceptImage_eq]
  refine ⟨rfl, rfl, rfl, paramValue_high rest (i := 0) rfl, paramValue_high rest (i := 1) rfl,
    paramValue_low rest (i := 2) rfl, paramValue_word rest (i := 3) rfl, paramValue_low rest (i := 4) rfl,
    paramValue_low rest (i := 5) rfl, paramValue_word rest (i := 6) rfl,
    ofNat_paramValue_toNat rest (i := 7) rfl (by decide), ofNat_paramValue_toNat rest (i := 8) rfl (by decide), rfl, ?_, rfl,
    defaultedSet_params rest, ?_, rfl, fun w => ?_, ?_, ?_, ?_, rfl⟩
  · intro i
    simp only [Fin.getElem_fin, Vector.getElem_ofFn, imageFilter_wholeImage]
  · have hbyte (i : Nat) : imageByte (wholeImage rest) (210 + 3 * i) = rest.getD (206 + 3 * i) 0 :=
      imageByte_rest rest (by omega)
    simp only [← hbyte]
    exact defaultedSet_getLsbD_filters _
  · obtain ⟨standing, hw, hoff⟩ := hwin w
    rw [imageDescriptor_wholeImage rest w] at hw hoff
    exact Window.load_spec hw hoff
  · exact (EventUnit.giveHeld_frame _ _).1.trans (EventUnit.captures_frame _ _ _ _ _).1
  · exact (EventUnit.giveHeld_frame _ _).2.1.trans (EventUnit.captures_frame _ _ _ _ _).2.1
  · exact (EventUnit.giveHeld_frame _ _).2.2.trans (EventUnit.captures_frame _ _ _ _ _).2.2

end Sys2Proof.Machine
end

section
/-!
The events of a good load (R42, R168, R187, R188).
-/

namespace Sys2Proof.Machine

/-- R165: events behind the captured one are counted, and enter the summary set. -/
theorem EventUnit.captures_of_hold {e : EventUnit} (hhold : e.captureHold = true) {fs : List EventFields}
    (hbit : ∀ f ∈ fs, f.cause.eventClass.bit = 1) (t : BitVec 32) (loading : Bool) (v : BitVec 2) :
    e.captures fs t loading v =
      { e with moreEvents := if fs = [] then e.moreEvents else min 255 (e.moreEvents + fs.length)
               summary := if fs = [] then e.summary else e.summary ||| 1 } := by
  induction fs generalizing e with
  | nil => rfl
  | cons f rest ih =>
    obtain ⟨hf, hrest⟩ := List.forall_mem_cons.1 hbit
    have hone : e.capture f t loading v =
        { e with moreEvents := min 255 (e.moreEvents + 1), summary := e.summary ||| 1 } := by
      simp only [EventUnit.capture, hhold, if_true, hf]
    change (e.capture f t loading v).captures rest t loading v = _
    rw [hone, ih (e := { e with moreEvents := min 255 (e.moreEvents + 1), summary := e.summary ||| 1 }) hhold hrest]
    by_cases hnil : rest = []
    · simp [hnil]
    · simp only [hnil, if_false, reduceCtorEq, List.length_cons, EventUnit.mk.injEq, true_and, and_true]
      refine ⟨by omega, ?_⟩
      rw [BitVec.or_assoc, BitVec.or_self]

/-- R165, R168: the first event of a load is captured, the others counted, and one occurrence is given at its end. -/
theorem EventUnit.giveHeld_captures {e : EventUnit} (hclear : e.captureHold = false) (hheld : e.heldOccurrence = false)
    (f : EventFields) {rest : List EventFields} (hbit : ∀ f ∈ rest, f.cause.eventClass.bit = 1) (t : BitVec 32)
    (v w : BitVec 2) :
    (e.captures (f :: rest) t true v).giveHeld w =
      { e with record := f.toRecord t, captureHold := true
               moreEvents := if rest = [] then e.moreEvents else min 255 (e.moreEvents + rest.length)
               summary := if rest = [] then e.summary else e.summary ||| 1
               pending := e.pending ||| (1 <<< w.toNat) } := by
  have hfirst : e.capture f t true v = { e with record := f.toRecord t, captureHold := true, heldOccurrence := true } := by
    simp [EventUnit.capture, hclear]
  change ((e.capture f t true v).captures rest t true v).giveHeld w = _
  rw [hfirst, EventUnit.captures_of_hold rfl hbit]
  simp [EventUnit.giveHeld, EventUnit.occur, hheld]

theorem State.loadEvents_bit (s : State) (img : List Byte) : ∀ f ∈ s.loadEvents img, f.cause.eventClass.bit = 1 := by
  intro f hf
  simp only [State.loadEvents, State.rejections, List.mem_append, List.mem_replicate, List.mem_map] at hf
  rcases hf with (⟨-, rfl⟩ | ⟨w, -, rfl⟩) | ⟨-, rfl⟩ <;> rfl

theorem State.length_loadEvents (s : State) (img : List Byte) :
    (s.loadEvents img).length =
      (defaultedParams img).length + (allWindows.filter (s.windowsTaken img).isRejected).length +
        (defaultedFilters img).length := by
  simp [State.loadEvents, State.rejections, Nat.add_assoc]

/-- The first event of a load: of a parameter, else of a window, else of a filter. -/
theorem State.head_loadEvents {s : State} {img : List Byte} {f : EventFields} {rest : List EventFields}
    (h : s.loadEvents img = f :: rest) (t : BitVec 32) :
    let rejected := allWindows.filter (s.windowsTaken img).isRejected
    f.toRecord t =
      { cause := if defaultedParams img = [] ∧ rejected ≠ [] then some .configWindow else some .configDefaulted
        window := if defaultedParams img = [] then rejected.head? else none, station := none, address := none,
        sequence := none, time := t } := by
  intro rejected
  unfold State.loadEvents State.rejections at h
  change List.replicate _ _ ++ List.map _ rejected ++ _ = _ at h
  cases hparams : defaultedParams img with
  | cons p ps =>
    rw [hparams, List.length_cons, List.replicate_succ] at h
    obtain ⟨rfl, -⟩ := List.cons.inj h
    simp [EventFields.toRecord]
  | nil =>
    rw [hparams, List.length_nil, List.replicate_zero, List.nil_append] at h
    cases hrejected : rejected with
    | cons w ws =>
      rw [hrejected, List.map_cons] at h
      obtain ⟨rfl, -⟩ := List.cons.inj h
      simp [EventFields.toRecord]
    | nil =>
      rw [hrejected, List.map_nil, List.nil_append] at h
      have hmem : f ∈ List.replicate (defaultedFilters img).length ({ cause := .configDefaulted } : EventFields) := by
        simp [h]
      obtain ⟨-, rfl⟩ := List.mem_replicate.1 hmem
      simp [EventFields.toRecord]

theorem filter_defaultedSet (img : List Byte) :
    ((List.range 9).filter fun k => (defaultedSet img).getLsbD k) = defaultedParams img := by
  have hset : ∀ k ∈ List.range 9, (defaultedSet img).getLsbD k = decide (k ∈ defaultedParams img) := fun k hk =>
    defaultedSet_getLsbD img (List.mem_range.1 hk)
  rw [List.filter_congr hset]
  unfold defaultedParams
  exact List.filter_congr fun k hk => by simp only [List.mem_filter, hk, true_and, Bool.decide_eq_true]

theorem filter_wholeImage_filters (rest : List Byte) :
    ((List.range 6).filter fun i => decide (1 < (rest.getD (206 + 3 * i) 0).toNat)) = defaultedFilters (wholeImage rest) := by
  refine List.filter_congr fun i _ => ?_
  rw [filterDefaulted, imageByte_rest rest (by omega : 210 + 3 * i = 206 + 3 * i + 4)]

/-- Settles O8. -/
theorem loadRecordsItsEvents : Obligations.LoadRecordsItsEvents := by
  intro s rest hload hlength hpasses hline hclear hheld
  refine ⟨_, exec_configImageRead_of_passes hload hlength hpasses, ?_⟩
  have hen : (s.loadEnded.acceptImage (wholeImage rest)).en =
      (s.en.captures (s.loadEnded.loadEvents (wholeImage rest)) s.li.lineTime true s.lp.params.eventVector).giveHeld
        (imageParams (wholeImage rest)).eventVector := by
    rw [State.acceptImage_eq]
    simp only [State.capturesIn, State.loadEnded, State.modLp_li, hline, decide_true]
    rfl
  have hrejected : (s.loadEnded.acceptImage (wholeImage rest)).isRejected =
      (s.loadEnded.windowsTaken (wholeImage rest)).isRejected := by
    rw [State.acceptImage_eq]
    rfl
  have hdefaulted : (s.loadEnded.acceptImage (wholeImage rest)).lp.defaulted = defaultedSet (wholeImage rest) := rfl
  have hvector : (s.loadEnded.acceptImage (wholeImage rest)).lp.params.eventVector =
    (imageParams (wholeImage rest)).eventVector := rfl
  have hlen := s.loadEnded.length_loadEvents (wholeImage rest)
  simp only [hdefaulted, filter_defaultedSet, hrejected, filter_wholeImage_filters, hvector, ← hlen, hen]
  cases hevents : s.loadEnded.loadEvents (wholeImage rest) with
  | nil => simp [EventUnit.captures, EventUnit.giveHeld, hheld]
  | cons f fs =>
    have hbit := s.loadEnded.loadEvents_bit (wholeImage rest)
    rw [hevents] at hbit
    rw [EventUnit.giveHeld_captures hclear hheld f (List.forall_mem_cons.1 hbit).2,
      State.head_loadEvents hevents s.li.lineTime]
    have hfs : fs.length + 1 = 1 ↔ fs = [] := by simp
    simp only [List.length_cons, hfs, Nat.add_sub_cancel, Nat.succ_ne_zero, if_false]

end Sys2Proof.Machine
end

section
/-!
The load checks in their order (R41, R43) and the lookups of the maps the load builds (R44 to R47).
-/

namespace Sys2Proof.Machine

/-! ### What each check says (R41) -/

/-- Every window's standing is the load checks' verdict against the earlier enabled windows. -/
def State.LoadedInOrder (t : State) : Prop :=
  ∀ w : WinId, ∃ earlier : List Descriptor,
    (∀ e : Descriptor, e ∈ earlier ↔ ∃ v : WinId, v < w ∧ (t.win v).standing = .enabled ∧ (t.win v).desc = e) ∧
      (t.win w).standing = (t.win w).desc.standing t.lp.params.domainSet t.station earlier

theorem rangesShare_iff {a n b m : Nat} (hn : 0 < n) (hm : 0 < m) :
    rangesShare a n b m = true ↔ ∃ p : Nat, (b ≤ p ∧ p < b + m) ∧ (a ≤ p ∧ p < a + n) := by
  simp only [rangesShare, Bool.and_eq_true, decide_eq_true_eq]
  constructor
  · rintro ⟨hab, hba⟩
    exact ⟨max a b, by omega, by omega⟩
  · rintro ⟨p, hb, ha⟩
    omega

theorem roleOfCode_eq_follow_iff {c : Byte} : roleOfCode c = some .follow ↔ c = 2 := by
  unfold roleOfCode
  split_ifs <;> simp_all

theorem roleOfCode_eq_share_iff {c : Byte} : roleOfCode c = some .share ↔ c = 3 := by
  unfold roleOfCode
  split_ifs <;> simp_all

theorem roleOfCode_isNone_iff {c : Byte} : (roleOfCode c).isNone = true ↔ c = 0 ∨ 3 < c.toNat := by
  have hnum (k : Nat) (hk : k < 256) : (OfNat.ofNat k : Byte).toNat = k := Nat.mod_eq_of_lt hk
  unfold roleOfCode
  simp only [← BitVec.toNat_inj, hnum 0 (by decide), hnum 1 (by decide), hnum 2 (by decide), hnum 3 (by decide)]
  split_ifs <;> simp <;> omega

theorem notifyModeOfCode_isNone_iff {c : Byte} : (notifyModeOfCode c).isNone = true ↔ 2 < c.toNat := by
  have hnum (k : Nat) (hk : k < 256) : (OfNat.ofNat k : Byte).toNat = k := Nat.mod_eq_of_lt hk
  unfold notifyModeOfCode
  simp only [← BitVec.toNat_inj, hnum 0 (by decide), hnum 1 (by decide), hnum 2 (by decide)]
  split_ifs <;> simp <;> omega

theorem judgedOwner_eq_zero_iff {o : Station} : judgedOwner o = 0 ↔ o = 0 := by
  have hzero : o = 0 ↔ o.toNat = 0 := BitVec.toNat_inj.symm
  rw [judgedOwner, hzero]
  omega

theorem judgedOwner_eq_top_iff {o : Station} : judgedOwner o = 31 ↔ 31 ≤ o.toNat := by
  rw [judgedOwner]
  omega

theorem Descriptor.rejectReason_eq_some_iff {d : Descriptor} {set : Word} {station : Station} {earlier : List Descriptor}
    {n : Fin 10} : d.rejectReason set station earlier = some n ↔
      1 ≤ n.val ∧ d.fails set station earlier n = true ∧
        ∀ m : Fin 10, 1 ≤ m.val → m < n → d.fails set station earlier m = false := by
  have hlist : ([1, 2, 3, 4, 5, 6, 7, 8, 9] : List (Fin 10)) = (List.finRange 9).map Fin.succ := by decide
  rw [Descriptor.rejectReason, hlist, List.find?_eq_some_iff_getElem]
  simp only [List.getElem_map, List.getElem_finRange, List.length_map, List.length_finRange, Bool.not_eq_true']
  constructor
  · rintro ⟨hn, i, hi, rfl, hfirst⟩
    refine ⟨by simp, hn, fun m hm hlt => ?_⟩
    have hlt' : m.val - 1 < i := by
      have : m.val < i + 1 := by simpa [Fin.lt_def] using hlt
      omega
    have hm' : m = Fin.succ ⟨m.val - 1, by omega⟩ := Fin.ext (by simp; omega)
    rw [hm']
    exact hfirst (m.val - 1) hlt'
  · rintro ⟨hpos, hn, hfirst⟩
    refine ⟨hn, n.val - 1, by omega, Fin.ext (by simp; omega), fun j hj => hfirst _ (by simp) ?_⟩
    rw [Fin.lt_def]
    simp
    omega

theorem Descriptor.rejectReason_eq_none_iff {d : Descriptor} {set : Word} {station : Station} {earlier : List Descriptor} :
    d.rejectReason set station earlier = none ↔ ∀ m : Fin 10, 1 ≤ m.val → d.fails set station earlier m = false := by
  have hmem : ∀ m : Fin 10, m ∈ ([1, 2, 3, 4, 5, 6, 7, 8, 9] : List (Fin 10)) ↔ 1 ≤ m.val := by decide
  simp only [Descriptor.rejectReason, List.find?_eq_none, hmem, Bool.not_eq_true]

theorem Descriptor.standing_eq_enabled_iff {d : Descriptor} {set : Word} {station : Station} {earlier : List Descriptor} :
    d.standing set station earlier = .enabled ↔
      d.enable = true ∧ ∀ m : Fin 10, 1 ≤ m.val → d.fails set station earlier m = false := by
  rw [← Descriptor.rejectReason_eq_none_iff]
  unfold Descriptor.standing
  split
  · next henable =>
    split <;> simp_all
  · next henable => simp [henable]

theorem Descriptor.standing_eq_rejected_iff {d : Descriptor} {set : Word} {station : Station} {earlier : List Descriptor}
    {n : Fin 10} (henable : d.enable = true) :
    d.standing set station earlier = .rejected n ↔ d.rejectReason set station earlier = some n := by
  simp only [Descriptor.standing, henable, if_true]
  split <;> simp_all

/-! ### The checks of a loaded part -/

section Loaded
variable {t : State} {w : WinId} {earlier : List Descriptor}

/-- Checks 1 to 7 look at the descriptor alone. -/
theorem fails_iff_failsCheck (hearlier : ∀ e : Descriptor, e ∈ earlier ↔
      ∃ v : WinId, v < w ∧ (t.win v).standing = .enabled ∧ (t.win v).desc = e)
    (hpages : 0 < (t.win w).desc.pageCount.toNat)
    (hothers : ∀ v : WinId, (t.win v).standing = .enabled → 0 < (t.win v).desc.pageCount.toNat) (n : Fin 10) :
    (t.win w).desc.fails t.lp.params.domainSet t.station earlier n = true ↔ t.failsCheck w n.val := by
  match n with
  | 0 => simp [Descriptor.fails, State.failsCheck]
  | 1 => simp [Descriptor.fails, State.failsCheck]
  | 2 => simp [Descriptor.fails, State.failsCheck]
  | 3 => simp [Descriptor.fails, State.failsCheck]
  | 4 => simp [Descriptor.fails, State.failsCheck]
  | 5 =>
    simp only [Descriptor.fails, Bool.or_eq_true, roleOfCode_isNone_iff, notifyModeOfCode_isNone_iff,
      or_assoc]
    exact Iff.rfl
  | 6 =>
    simp only [Descriptor.fails, Bool.or_eq_true, Bool.and_eq_true, decide_eq_true_eq,
      roleOfCode_eq_follow_iff, judgedOwner_eq_zero_iff, judgedOwner_eq_top_iff, or_assoc]
    exact Iff.rfl
  | 7 =>
    simp only [Descriptor.fails, Bool.or_eq_true, Bool.and_eq_true, decide_eq_true_eq,
      roleOfCode_eq_share_iff, judgedOwner_eq_zero_iff, judgedOwner_eq_top_iff]
    exact Iff.rfl
  | 8 =>
    simp only [Descriptor.fails, List.any_eq_true, hearlier]
    constructor
    · rintro ⟨e, ⟨v, hv, hen, rfl⟩, hshares⟩
      exact ⟨v, hv, hen, (rangesShare_iff hpages (hothers v hen)).1 hshares⟩
    · rintro ⟨v, hv, hen, hp⟩
      exact ⟨_, ⟨v, hv, hen, rfl⟩, (rangesShare_iff hpages (hothers v hen)).2 hp⟩
  | 9 =>
    simp only [Descriptor.fails, List.any_eq_true, hearlier, Descriptor.sharesLine, Bool.and_eq_true,
      decide_eq_true_eq]
    constructor
    · rintro ⟨e, ⟨v, hv, hen, rfl⟩, hdomain, hshares⟩
      exact ⟨v, hv, hen, hdomain.symm, (rangesShare_iff hpages (hothers v hen)).1 hshares⟩
    · rintro ⟨v, hv, hen, hdomain, hp⟩
      exact ⟨_, ⟨v, hv, hen, rfl⟩, hdomain.symm, (rangesShare_iff hpages (hothers v hen)).2 hp⟩

theorem failsCheck_one_iff : (t.win w).desc.fails t.lp.params.domainSet t.station earlier 1 = true ↔ t.failsCheck w 1 := by
  simp [Descriptor.fails, State.failsCheck]

theorem pageCount_pos_of_not_failsCheck (h : ¬t.failsCheck w 1) : 0 < (t.win w).desc.pageCount.toNat := by
  have hzero : (t.win w).desc.pageCount = 0 ↔ (t.win w).desc.pageCount.toNat = 0 := BitVec.toNat_inj.symm
  simp only [State.failsCheck, not_or, hzero] at h
  omega

end Loaded

namespace State.LoadedInOrder

variable {t : State} (h : t.LoadedInOrder)
include h

theorem pages_pos (v : WinId) (hv : (t.win v).standing = .enabled) : 0 < (t.win v).desc.pageCount.toNat := by
  obtain ⟨earlier, -, hstanding⟩ := h v
  obtain ⟨-, hnone⟩ := Descriptor.standing_eq_enabled_iff.1 (hstanding.symm.trans hv)
  refine pageCount_pos_of_not_failsCheck fun hfails => ?_
  rw [← failsCheck_one_iff (earlier := earlier), hnone 1 (by decide)] at hfails
  cases hfails

/-- The checks of the load and the checks of R41 fail alike, until the first that fails. -/
theorem fails_iff (w : WinId) : ∃ earlier : List Descriptor,
    (t.win w).standing = (t.win w).desc.standing t.lp.params.domainSet t.station earlier ∧
      ((t.win w).desc.fails t.lp.params.domainSet t.station earlier 1 = true ↔ t.failsCheck w 1) ∧
      (¬t.failsCheck w 1 → ∀ n : Fin 10,
        (t.win w).desc.fails t.lp.params.domainSet t.station earlier n = true ↔ t.failsCheck w n.val) := by
  obtain ⟨earlier, hearlier, hstanding⟩ := h w
  exact ⟨earlier, hstanding, failsCheck_one_iff, fun hone n =>
    fails_iff_failsCheck hearlier (pageCount_pos_of_not_failsCheck hone) h.pages_pos n⟩

theorem rejected_iff {w : WinId} (henable : (t.win w).desc.enable = true) (n : Fin 10) :
    (t.win w).standing = .rejected n ↔
      1 ≤ n.val ∧ t.failsCheck w n.val ∧ ∀ m : Nat, 1 ≤ m → m < n.val → ¬t.failsCheck w m := by
  obtain ⟨earlier, hstanding, hone, hall⟩ := h.fails_iff w
  rw [hstanding, Descriptor.standing_eq_rejected_iff henable, Descriptor.rejectReason_eq_some_iff]
  refine and_congr_right fun hpos => ?_
  by_cases hfirst : t.failsCheck w 1
  · rcases Nat.eq_or_lt_of_le hpos with hn | hn
    · obtain rfl : n = 1 := Fin.ext hn.symm
      refine and_congr hone ⟨fun _ m hm hlt => ?_, fun _ m hm hlt => ?_⟩
      · have hlt' : m < 1 := hlt
        omega
      · have hlt' : m.val < 1 := hlt
        omega
    · refine ⟨fun ⟨_, hnone⟩ => ?_, fun ⟨_, hnone⟩ => absurd hfirst (hnone 1 le_rfl hn)⟩
      have := hnone 1 (by decide) hn
      rw [hone.2 hfirst] at this
      cases this
  · have hall := hall hfirst
    refine and_congr (hall n) ⟨fun hnone m hm hlt hfails => ?_, fun hnone m hm hlt => ?_⟩
    · have := hnone ⟨m, hlt.trans n.isLt⟩ hm hlt
      rw [(hall ⟨m, hlt.trans n.isLt⟩).2 hfails] at this
      cases this
    · rw [← Bool.not_eq_true, hall m]
      exact hnone m hm hlt

theorem enabled_iff (w : WinId) :
    (t.win w).standing = .enabled ↔ (t.win w).desc.enable = true ∧ ∀ m : Nat, 1 ≤ m → ¬t.failsCheck w m := by
  obtain ⟨earlier, hstanding, hone, hall⟩ := h.fails_iff w
  rw [hstanding, Descriptor.standing_eq_enabled_iff]
  refine and_congr_right fun _ => ⟨fun hnone m hm hfails => ?_, fun hnone m hm => ?_⟩
  · have hfirst : ¬t.failsCheck w 1 := fun hfirst => by
      have := hnone 1 (by decide)
      rw [hone.2 hfirst] at this
      cases this
    by_cases hlt : m < 10
    · have := hnone ⟨m, hlt⟩ hm
      rw [(hall hfirst ⟨m, hlt⟩).2 hfails] at this
      cases this
    · match m, hlt with
      | m + 10, _ => exact hfails
  · rw [← Bool.not_eq_true, hall (hnone 1 le_rfl) m]
    exact hnone m hm

/-- R43: a window that passes the checks shares no page with an earlier enabled one. -/
theorem apart_of_lt {v w : WinId} (hlt : v < w) (hv : (t.win v).standing = .enabled) (hw : (t.win w).standing = .enabled) :
    (∀ p : Nat, ¬(t.onLocalPage v p ∧ t.onLocalPage w p)) ∧
      ((t.win v).desc.domain = (t.win w).desc.domain → ∀ p : Nat, ¬(t.onLinePage v p ∧ t.onLinePage w p)) := by
  obtain ⟨-, hnone⟩ := (h.enabled_iff w).1 hw
  refine ⟨fun p hp => hnone 8 (by decide) ⟨v, hlt, hv, p, hp⟩, fun hdomain p hp => ?_⟩
  exact hnone 9 (by decide) ⟨v, hlt, hv, hdomain, p, hp⟩

end State.LoadedInOrder

/-! ### The windows of a good load (R41, R43) -/

/-- The windows before `w` in window order are those below it. -/
theorem mem_before_iff {before after : List WinId} {w : WinId} (hsplit : allWindows = before ++ w :: after) (v : WinId) :
    v ∈ before ↔ v < w := by
  have hsorted : allWindows.Pairwise (· < ·) := by decide
  rw [hsplit, List.pairwise_append, List.pairwise_cons] at hsorted
  obtain ⟨-, ⟨hafter, -⟩, hbefore⟩ := hsorted
  refine ⟨fun hv => hbefore v hv w (by simp), fun hv => ?_⟩
  have hmem := mem_allWindows v
  rw [hsplit, List.mem_append, List.mem_cons] at hmem
  rcases hmem with hmem | rfl | hmem
  · exact hmem
  · exact absurd hv (lt_irrefl _)
  · exact absurd (hafter v hmem) (not_lt_of_gt hv)

theorem State.takeWindows_inOrder {s : State} (img : List Byte) (hnone : ∀ w : WinId, (s.win w).standing = .notLoaded)
    (w : WinId) : ∃ earlier : List Descriptor,
      (∀ e : Descriptor, e ∈ earlier ↔ ∃ v : WinId, v < w ∧ ((s.takeWindows img).win v).standing = .enabled ∧
        ((s.takeWindows img).win v).desc = e) ∧
      (s.takeWindows img).win w = (s.win w).load (imageDescriptor img w)
        ((imageDescriptor img w).standing (imageWord img 5) (imageByte img 4) earlier) (imageByte img 4) := by
  obtain ⟨before, after, hsplit⟩ := List.append_of_mem (mem_allWindows w)
  have hnodup : (before ++ w :: after).Nodup := hsplit ▸ (by decide)
  obtain ⟨-, hafter, hdisjoint⟩ := List.nodup_append.1 hnodup
  have hwbefore : w ∉ before := fun h => hdisjoint _ h _ (by simp) rfl
  refine ⟨(s.takeList img before).enabledDescriptors, fun e => ?_, ?_⟩
  · have hbefore {v : WinId} (hv : v ∈ before) : (s.takeWindows img).win v = (s.takeList img before).win v := by
      rw [State.takeWindows_eq, hsplit, State.takeList_append,
        State.takeList_win_of_not_mem _ _ fun h => hdisjoint v hv v h rfl]
    simp only [State.enabledDescriptors, List.mem_map, List.mem_filter, mem_allWindows, true_and, Window.enabled,
      decide_eq_true_eq]
    refine exists_congr fun v => ?_
    by_cases hv : v ∈ before
    · rw [hbefore hv]
      simp [(mem_before_iff hsplit v).1 hv]
    · rw [State.takeList_win_of_not_mem _ _ hv, hnone v]
      simp [(mem_before_iff hsplit v).not.1 hv]
  · rw [State.takeWindows_eq, hsplit]
    exact State.takeList_win s img hwbefore (List.nodup_cons.1 hafter).1

theorem State.acceptImage_loadedInOrder {s : State} (img : List Byte) (hnone : ∀ w : WinId, (s.win w).standing = .notLoaded) :
    (s.acceptImage img).LoadedInOrder := by
  intro w
  have hnone' (w : WinId) : ((s.recordDefaultedTimes (defaultedParams img).length).win w).standing = .notLoaded := by
    rw [State.recordDefaultedTimes_eq]
    exact hnone w
  obtain ⟨earlier, hearlier, hw⟩ := State.takeWindows_inOrder img hnone' w
  rw [State.acceptImage_eq]
  exact ⟨earlier, hearlier, (congrArg Window.standing hw).trans
    (congrArg (fun d => Descriptor.standing d _ _ earlier) (congrArg Window.desc hw).symm)⟩

/-- What checks 1 to 7 leave of an enabled window. -/
theorem State.enabled_spec {t : State} {w : WinId} (h : ∀ m : Nat, 1 ≤ m → ¬t.failsCheck w m) :
    1 ≤ (t.win w).pages ∧ (t.win w).pages ≤ 64 ∧ (t.win w).desc.localBase.toNat + (t.win w).pages ≤ 256 ∧
      (t.win w).desc.lineBase.toNat + (t.win w).pages ≤ 65536 ∧
      t.lp.params.domainSet.getLsbD (t.win w).desc.domain.toNat = true ∧ (t.win w).desc.domain.toNat ≤ 15 ∧
      (t.win w).role ≠ none ∧ (t.win w).desc.notifyModeCode.toNat ≤ 2 ∧
      ((t.win w).role = some .follow →
        1 ≤ (t.win w).desc.owner.toNat ∧ (t.win w).desc.owner.toNat ≤ 30 ∧ (t.win w).desc.owner ≠ t.station) ∧
      ((t.win w).role = some .share → 1 ≤ (t.win w).desc.owner.toNat ∧ (t.win w).desc.owner.toNat ≤ 30) := by
  have hpages := pageCount_pos_of_not_failsCheck (h 1 (by decide))
  have hzero : (t.win w).desc.owner = 0 ↔ (t.win w).desc.owner.toNat = 0 := BitVec.toNat_inj.symm
  have h1 := h 1 (by decide)
  have h2 := h 2 (by decide)
  have h3 := h 3 (by decide)
  have h4 := h 4 (by decide)
  have h5 := h 5 (by decide)
  have h6 := h 6 (by decide)
  have h7 := h 7 (by decide)
  simp only [State.failsCheck, not_or, not_lt, Bool.not_eq_false, hzero] at h1 h2 h3 h4 h5 h6 h7
  obtain ⟨h5role, h5code, h5mode⟩ := h5
  refine ⟨hpages, h1.2, h2, h3, h4.2, h4.1, fun hrole => ?_, h5mode, fun hrole => ?_, fun hrole => ?_⟩
  · rcases roleOfCode_isNone_iff.1 (Option.isNone_iff_eq_none.2 hrole) with hcode | hcode
    · exact h5role hcode
    · exact absurd hcode (not_lt.2 h5code)
  · have hnot := not_and.1 h6 (roleOfCode_eq_follow_iff.1 hrole)
    simp only [not_or, not_le] at hnot
    exact ⟨by omega, by omega, hnot.2.2⟩
  · have hnot := not_and.1 h7 (roleOfCode_eq_share_iff.1 hrole)
    simp only [not_or, not_le] at hnot
    omega

/-- Settles O9. -/
theorem enabledWindowsStandApart : Obligations.EnabledWindowsStandApart := by
  intro s rest hload hlength hpasses hnone
  refine ⟨_, exec_configImageRead_of_passes hload hlength hpasses, ?_⟩
  have hloaded : (s.loadEnded.acceptImage (wholeImage rest)).LoadedInOrder :=
    State.acceptImage_loadedInOrder (wholeImage rest) hnone
  generalize s.loadEnded.acceptImage (wholeImage rest) = t at hloaded ⊢
  refine ⟨fun w henable => ⟨hloaded.rejected_iff henable, ?_⟩, fun w hw => ?_, fun v w hne hv hw => ?_⟩
  · rw [hloaded.enabled_iff w]
    simp [henable]
  · obtain ⟨-, hpass⟩ := (hloaded.enabled_iff w).1 hw
    exact State.enabled_spec fun m hm => hpass m hm
  · rcases lt_or_gt_of_ne hne with hlt | hlt
    · obtain ⟨hlocal, hline⟩ := hloaded.apart_of_lt hlt hv hw
      exact ⟨fun p ⟨h1, h2, h3⟩ => hlocal p ⟨⟨h1, h2⟩, h3⟩, fun hd p ⟨h1, h2, h3⟩ => hline hd p ⟨⟨h1, h2⟩, h3⟩⟩
    · obtain ⟨hlocal, hline⟩ := hloaded.apart_of_lt hlt hw hv
      exact ⟨fun p ⟨h1, h2, h3⟩ => hlocal p ⟨h3, h1, h2⟩, fun hd p ⟨h1, h2, h3⟩ => hline hd.symm p ⟨h3, h1, h2⟩⟩

end Sys2Proof.Machine
end

section
/-!
The maps the load builds and their lookups (R44 to R47).
-/

namespace Sys2Proof.Machine

/-- The window's line pages hold the given page of the given domain (R47). -/
def State.holdsPage (s : State) (domain page : Word) (w : WinId) : Bool :=
  (s.win w).enabled && (s.lineEntry w).holds domain page

theorem State.holdsPage_iff {s : State} {domain page : Word} {w : WinId} :
    s.holdsPage domain page w = true ↔
      (s.win w).standing = .enabled ∧ (s.win w).desc.domain.toNat = domain.toNat ∧ s.onLinePage w page.toNat := by
  simp only [State.holdsPage, Window.enabled, LineMapEntry.holds, Bool.and_eq_true, decide_eq_true_eq, and_assoc]
  exact Iff.rfl

theorem State.find?_lineMap (s : State) (domain page : Word) :
    (s.buildMaps.maps.lineMap.find? fun e => e.holds domain page) =
      (allWindows.find? (s.holdsPage domain page)).map s.lineEntry := by
  change _ = (allWindows.find? fun w => s.holdsPage domain page w).map s.lineEntry
  simp only [State.buildMaps, List.find?_map, List.find?_filter, Function.comp_def, State.holdsPage, Bool.decide_and,
    Bool.decide_eq_true]

/-- R47: the probe fields, by the first window that holds the page. -/
theorem State.probe_buildMaps (s : State) (domain page : Word) :
    s.buildMaps.probe domain page =
      match allWindows.find? (s.holdsPage domain page) with
      | none => { found := false, window := 0, pageIndex := 0, localPage := 0 }
      | some w => { found := true, window := w, pageIndex := page.toNat - (s.win w).desc.lineBase.toNat,
                    localPage := (s.win w).desc.localBase.toNat + (page.toNat - (s.win w).desc.lineBase.toNat) } := by
  rw [State.probe, State.find?_lineMap]
  cases allWindows.find? (s.holdsPage domain page) <;> rfl

theorem exec_probe {s : State} (hport : s.idlePort) (hdomain : s.lp.args[0].toNat ≤ 15) :
    exec .probe s = .next { s with lp := s.lp.answered 0x0008 .done .none (s.probe s.lp.args[0] s.lp.args[1]) } := by
  have hnot : ¬15 < (s.arg 0).toNat := not_lt.2 hdomain
  simp only [exec, execProbe, State.portFree_of_idlePort hport, if_true, hnot, if_false]
  rfl

theorem State.mem_lineMap_iff {s : State} {e : LineMapEntry} :
    e ∈ s.buildMaps.maps.lineMap ↔ ∃ w : WinId, (s.win w).standing = .enabled ∧ s.lineEntry w = e := by
  simp [State.buildMaps, Window.enabled]

theorem State.mem_localMap_iff {s : State} {p : Nat} {w : WinId} :
    (p, w) ∈ s.buildMaps.maps.localMap ↔ (s.win w).standing = .enabled ∧ s.onLocalPage w p := by
  simp only [State.buildMaps, List.mem_flatMap, List.mem_filter, mem_allWindows, true_and, Window.enabled,
    decide_eq_true_eq, State.localEntries, List.mem_map, List.mem_range, Prod.mk.injEq]
  constructor
  · rintro ⟨v, hv, i, hi, rfl, rfl⟩
    exact ⟨hv, by omega, by omega⟩
  · rintro ⟨hw, hlow, hhigh⟩
    exact ⟨w, hw, p - (s.win w).desc.localBase.toNat, by omega, by omega, rfl⟩

theorem WindowMaps.exact_eq_some {m : WindowMaps} {d : BitVec 4} {b : Word} {w : WinId} (h : m.exact d b = some w) :
    ∃ e ∈ m.lineMap, e.domain.toNat = d.toNat ∧ e.lineBase = b ∧ e.window = w := by
  obtain ⟨e, he, rfl⟩ := Option.map_eq_some_iff.1 h
  have hp := List.find?_some he
  simp only [Bool.and_eq_true, decide_eq_true_eq] at hp
  exact ⟨e, List.mem_of_find?_eq_some he, hp.1, hp.2, rfl⟩

theorem WindowMaps.exact_ne_none {m : WindowMaps} {d : BitVec 4} {b : Word} {e : LineMapEntry} (he : e ∈ m.lineMap)
    (hd : e.domain.toNat = d.toNat) (hb : e.lineBase = b) : m.exact d b ≠ none := by
  intro h
  rw [WindowMaps.exact, Option.map_eq_none_iff, List.find?_eq_none] at h
  exact h e he (by simp [hd, hb])

theorem WindowMaps.ofLocalPage_eq_some {m : WindowMaps} {p : Nat} {w : WinId} (h : m.ofLocalPage p = some w) :
    (p, w) ∈ m.localMap := by
  obtain ⟨e, he, rfl⟩ := Option.map_eq_some_iff.1 h
  have hp := List.find?_some he
  rw [decide_eq_true_eq] at hp
  rw [← hp]
  exact List.mem_of_find?_eq_some he

theorem WindowMaps.ofLocalPage_ne_none {m : WindowMaps} {p : Nat} {w : WinId} (h : (p, w) ∈ m.localMap) :
    m.ofLocalPage p ≠ none := by
  intro hnone
  rw [WindowMaps.ofLocalPage, Option.map_eq_none_iff, List.find?_eq_none] at hnone
  exact hnone _ h (by simp)

/-- Settles O10. -/
theorem lookupsFindEnabledWindows : Obligations.LookupsFindEnabledWindows := by
  refine ⟨fun s hport hdomain => ?_, fun s => ⟨fun d b w h => ?_, fun d b w hw hd hb => ?_, fun p w h => ?_,
    fun p w hw hlow hhigh => ?_⟩⟩
  · have hexec := exec_probe (s := s.buildMaps) hport hdomain
    refine ⟨fun w hw hfirst => ?_, fun hnone => ?_⟩
    · have hfind : allWindows.find? (s.holdsPage s.lp.args[0] s.lp.args[1]) = some w :=
        find?_allWindows_eq_some (State.holdsPage_iff.2 hw) fun v hv =>
          Bool.eq_false_iff.2 fun h => hfirst v hv (State.holdsPage_iff.1 h)
      rw [hexec]
      change Host.Outcome.next ({ s.buildMaps with lp := s.lp.answered _ _ _ (s.buildMaps.probe s.lp.args[0] s.lp.args[1]) } : State) = _
      rw [State.probe_buildMaps, hfind]
    · have hfind : allWindows.find? (s.holdsPage s.lp.args[0] s.lp.args[1]) = none :=
        find?_allWindows_eq_none.2 fun v => Bool.eq_false_iff.2 fun h => hnone v (State.holdsPage_iff.1 h)
      rw [hexec]
      change Host.Outcome.next ({ s.buildMaps with lp := s.lp.answered _ _ _ (s.buildMaps.probe s.lp.args[0] s.lp.args[1]) } : State) = _
      rw [State.probe_buildMaps, hfind]
      rfl
  · obtain ⟨e, he, hd, hb, rfl⟩ := WindowMaps.exact_eq_some h
    obtain ⟨w, hw, rfl⟩ := State.mem_lineMap_iff.1 he
    exact ⟨hw, hd, hb⟩
  · exact WindowMaps.exact_ne_none (State.mem_lineMap_iff.2 ⟨w, hw, rfl⟩) hd hb
  · exact State.mem_localMap_iff.1 (WindowMaps.ofLocalPage_eq_some h)
  · exact WindowMaps.ofLocalPage_ne_none (State.mem_localMap_iff.2 ⟨hw, hlow, hhigh⟩)

end Sys2Proof.Machine
end

section
/-!
One bit time on an empty queue (log 2): what must come first, and what the bt changes.
-/

namespace Sys2Proof.Machine

/-! ### Windows and timers -/

theorem Window.followed_iff {s : State} {w : WinId} : (s.win w).followed = true ↔ s.follows w := by
  simp [Window.followed]

theorem Window.owned_iff {x : Window} : x.owned = true ↔ x.ownership = .owner ∨ x.ownership = .granting := by
  simp [Window.owned]

theorem Window.waitsDelay_expired_iff {s : State} {w : WinId} :
    ((s.win w).waitsDelay && (s.win w).wait.expired) = true ↔
      s.follows w ∧ ((s.win w).sync = .gap ∨ (s.win w).sync = .unsynced) ∧ (s.win w).wait = .requestDelay 0 := by
  have hwait : ((s.win w).wait.isDelay && (s.win w).wait.expired) = true ↔ (s.win w).wait = .requestDelay 0 := by
    cases (s.win w).wait <;> simp [WaitTimer.isDelay, WaitTimer.expired]
  rw [Window.waitsDelay, Bool.and_assoc, Bool.and_assoc, Bool.and_eq_true, Bool.and_eq_true, hwait, Window.followed_iff]
  simp

theorem Window.waitsTimeout_expired_iff {s : State} {w : WinId} :
    ((s.win w).waitsTimeout && (s.win w).wait.expired) = true ↔
      s.follows w ∧ (s.win w).sync = .refreshing ∧ (s.win w).wait = .refreshTimeout 0 := by
  have hwait : ((s.win w).wait.isTimeout && (s.win w).wait.expired) = true ↔ (s.win w).wait = .refreshTimeout 0 := by
    cases (s.win w).wait <;> simp [WaitTimer.isTimeout, WaitTimer.expired]
  rw [Window.waitsTimeout, Bool.and_assoc, Bool.and_assoc, Bool.and_eq_true, Bool.and_eq_true, hwait, Window.followed_iff]
  simp

theorem Timer.expired_iff {t : Timer} : t.expired = true ↔ t = .running 0 := by
  cases t <;> simp [Timer.expired]

theorem State.windowExpiry_eq (s : State) (w : WinId) : s.windowExpiry w = s.windowRow w := by
  have hclaim : (decide ((s.win w).ownership = .claiming) && (s.win w).claimTimer.expired) = true ↔
      (s.win w).ownership = .claiming ∧ (s.win w).claimTimer = .running 0 := by
    rw [Bool.and_eq_true, decide_eq_true_eq, Timer.expired_iff]
  simp only [State.windowExpiry, State.windowRow, Window.waitsDelay_expired_iff, Window.waitsTimeout_expired_iff, hclaim]

theorem State.waitLimitReached_iff {s : State} : s.waitLimitReached = true ↔ s.heldTooLong := by
  unfold State.waitLimitReached State.heldTooLong
  cases hc : s.lp.cycle with
  | none => simp
  | some c =>
    cases hst : c.stage with
    | heldWrite w n =>
      have hlimit : s.lp.params.microsecond = 2 ^ s.lp.params.rateCode := rfl
      simp [hst, hlimit]
    | _ => simp [hst]

theorem State.needsPage_iff {s : State} : s.needsPage = true ↔ s.pageNeeded := by
  have hwire {o : OnLine} (ho : o.pagePending = true) :
      o.wire.length = 9 + (stuff ((bitsOfBytes o.frame.headerBody).take 48)).length := by
    rw [OnLine.wire, if_pos ho, List.length_append]
    rfl
  unfold State.needsPage State.pageNeeded
  simp only [Option.any_eq_true, Bool.and_eq_true, decide_eq_true_eq]
  refine exists_congr fun o => and_congr_right fun _ => and_congr_right fun ho => ?_
  rw [hwire ho]

theorem State.grantEvent_eq (s : State) : s.grantEvent = s.grantRow := by
  cases hgranted : s.rm.arb.granted with
  | none => simp only [State.grantEvent, State.grantRow, hgranted]
  | some r =>
    cases r with
    | sweepReader => simp only [State.grantEvent, State.grantRow, hgranted]
    | writer =>
      cases hwork : s.rh.work with
      | none => simp only [State.grantEvent, State.grantRow, hgranted, hwork, Option.map_none]
      | some wk => cases wk <;> simp only [State.grantEvent, State.grantRow, hgranted, hwork, Option.map_some]
    | localPort =>
      cases hcycle : s.lp.cycle with
      | none => simp only [State.grantEvent, State.grantRow, hgranted, hcycle, Option.bind_none]
      | some c =>
        cases hstage : c.stage <;>
          simp only [State.grantEvent, State.grantRow, hgranted, hcycle, Option.bind_some, hstage]

/-! ### What must come before the bt (log 4) -/

section BeforeBt
variable {s : State}

theorem State.expiryEvent_of_join (hline : s.li.line = .listen) (htimer : s.li.joinTimer = .running 0) :
    s.expiryEvent = some .joinTimerExpiry := by
  rw [State.expiryEvent, if_pos ⟨hline, Timer.expired_iff.2 htimer⟩]

theorem State.expiryEvent_of_recovery (hline : s.li.line = .faulted) (htimer : s.li.recoveryTimer = .running 0) :
    s.expiryEvent = some .recoveryTimerExpiry := by
  have hjoin : ¬(s.li.line = .listen ∧ s.li.joinTimer.expired = true) := by simp [hline]
  rw [State.expiryEvent, if_neg hjoin, if_pos ⟨hline, Timer.expired_iff.2 htimer⟩]

theorem State.expiryEvent_of_window (hjoin : ¬(s.li.line = .listen ∧ s.li.joinTimer = .running 0))
    (hrecovery : ¬(s.li.line = .faulted ∧ s.li.recoveryTimer = .running 0)) {i : Instr}
    (h : allWindows.findSome? s.windowRow = some i) : s.expiryEvent = some i := by
  rw [← Timer.expired_iff] at hjoin hrecovery
  rw [← funext s.windowExpiry_eq] at h
  simp only [State.expiryEvent, hjoin, hrecovery, if_false, h]

theorem State.expiryEvent_of_port (hjoin : ¬(s.li.line = .listen ∧ s.li.joinTimer = .running 0))
    (hrecovery : ¬(s.li.line = .faulted ∧ s.li.recoveryTimer = .running 0))
    (h : allWindows.findSome? s.windowRow = none) :
    (s.heldTooLong → s.expiryEvent = some .postWaitExpiry) ∧ (¬s.heldTooLong → s.expiryEvent = none) := by
  rw [← Timer.expired_iff] at hjoin hrecovery
  rw [← funext s.windowExpiry_eq] at h
  simp only [State.expiryEvent, hjoin, hrecovery, if_false, h, ← State.waitLimitReached_iff]
  exact ⟨fun hheld => by rw [if_pos hheld], fun hheld => by rw [if_neg hheld]⟩

theorem State.beforeBt_of_expiry {i : Instr} (h : s.expiryEvent = some i) : s.beforeBt = some i := by
  simp only [State.beforeBt, h]

theorem State.beforeBt_of_frame (h : s.expiryEvent = none) (hready : s.readyToSend) (hnext : s.nextFrame ≠ none) :
    s.beforeBt = some .transmitStart := by
  have hmay : (s.mayBegin && s.nextFrame.isSome) = true := by
    rw [Bool.and_eq_true, State.mayBegin_iff, Option.isSome_iff_ne_none]
    exact ⟨hready, hnext⟩
  simp only [State.beforeBt, h, hmay, if_true]

theorem State.beforeBt_of_page (h : s.expiryEvent = none) (hframe : ¬s.readyToSend ∨ s.nextFrame = none) :
    s.beforeBt = if s.needsPage then s.grantRow else none := by
  have hmay : (s.mayBegin && s.nextFrame.isSome) = false := by
    rw [Bool.and_eq_false_iff, ← Bool.not_eq_true, State.mayBegin_iff]
    exact hframe.imp_right fun hnone => by rw [hnone]; rfl
  simp only [State.beforeBt, h, hmay, Bool.false_eq_true, if_false, State.grantEvent_eq]

end BeforeBt

/-! ### The bt -/

theorem LineState.receives_iff {l : LineState} : l.receives = true ↔ l.runs := by
  cases l <;> simp [LineState.receives, LineState.runs]

theorem State.tick_of_idle_line {s : State} (h : s.lp.inReset = true ∨ ¬s.li.line.runs) : s.tick = s := by
  have hidle : (s.lp.inReset || !s.li.line.receives) = true := by
    rw [← LineState.receives_iff] at h
    simpa using h
  rw [State.tick, if_pos hidle]

section Running
variable {s : State} (hreset : s.lp.inReset = false) (hline : s.li.line.runs)
include hreset hline

theorem State.tick_of_before {i : Instr} (hbefore : s.beforeBt = some i) : s.tick = { s with pending := [i] } := by
  simp only [State.tick, hreset, LineState.receives_iff.2 hline, hbefore]
  rfl

theorem State.tick_of_none (hbefore : s.beforeBt = none) : s.tick = s.advance := by
  simp only [State.tick, hreset, LineState.receives_iff.2 hline, hbefore]
  rfl

end Running

theorem State.win_advance (s : State) (w : WinId) : s.advance.win w = (s.win w).tick := s.win_map Window.tick w

theorem LocalCycle.tick_of_not_held {c : LocalCycle} (h : ∀ (w : WinId) (n : Nat), c.stage ≠ .heldWrite w n) :
    c.tick = c := by
  unfold LocalCycle.tick
  split
  · next w n hst => exact absurd hst (h w n)
  all_goals rfl

/-- Settles O2. -/
theorem emptyQueuePassesOneBit : Obligations.EmptyQueuePassesOneBit := by
  refine ⟨fun s => ?_, fun s hempty hidle => ?_, fun s i hempty hreset hline hbefore => ?_,
    fun s hempty hreset hline hbefore => ⟨s.advance, ?_, ?_⟩⟩
  · refine ⟨fun ⟨hline, htimer⟩ => State.beforeBt_of_expiry (State.expiryEvent_of_join hline htimer),
      fun ⟨hline, htimer⟩ => State.beforeBt_of_expiry (State.expiryEvent_of_recovery hline htimer),
      fun hjoin hrecovery => ?_⟩
    refine ⟨fun i hi => State.beforeBt_of_expiry (State.expiryEvent_of_window hjoin hrecovery hi), fun hnone => ?_⟩
    obtain ⟨hpost, hquiet⟩ := State.expiryEvent_of_port hjoin hrecovery hnone
    refine ⟨fun hheld => State.beforeBt_of_expiry (hpost hheld), fun hheld => ?_⟩
    refine ⟨State.beforeBt_of_frame (hquiet hheld), fun hframe => ?_⟩
    have hpage := State.beforeBt_of_page (hquiet hheld) hframe
    rw [← State.needsPage_iff]
    exact ⟨fun h => by rw [hpage, if_pos h], fun h => by rw [hpage, if_neg h]⟩
  · rw [step_of_empty hempty, State.tick_of_idle_line hidle]
  · rw [step_of_empty hempty, State.tick_of_before hreset hline hbefore]
  · rw [step_of_empty hempty, State.tick_of_none hreset hline hbefore]
  · have hline : s.advance.li = s.tickLine := rfl
    refine ⟨rfl, rfl, fun hb => ?_, fun hb => ?_, fun w => s.win_advance w, fun htx => ?_, fun f htx => ?_, fun f htx => ?_,
      fun bits hrx => ?_, fun hrx => ?_, fun n hrx => ?_, ?_, fun c w n hc hst => ?_, fun hnot => ?_, rfl, rfl⟩
    · rw [hline]
      simp [State.tickLine, LineInterface.nextRecessive, LineInterface.nextDominant, hb, Config.yieldInterval, recessive, dominant]
    · rw [hline]
      simp [State.tickLine, LineInterface.nextRecessive, LineInterface.nextDominant, hb, Config.stuckRun, recessive, dominant]
    · simp [hline, State.tickLine, htx, Transmitter.mapOnLine]
    · simp [hline, State.tickLine, htx, Transmitter.mapOnLine]
    · simp [hline, State.tickLine, htx, Transmitter.mapOnLine]
    · simp [hline, State.tickLine, hrx, Receiver.next]
    · have hidle : decide (Config.idleThreshold ≤ s.li.recessiveRun) = decide (16 ≤ s.li.recessiveRun) := rfl
      simp [hline, State.tickLine, hrx, Receiver.next, hidle]
    · simp [hline, State.tickLine, hrx, Receiver.next]
    · have hidle (n : Nat) : decide (Config.idleThreshold ≤ n) = decide (16 ≤ n) := rfl
      simp only [hline, State.tickLine, Timer.tickIdle, hidle, decide_eq_true_eq]
    · have hcycle : s.advance.lp.cycle = some c.tick := by simp [State.advance, hc]
      rw [hcycle, LocalCycle.tick, hst]
    · have hcycle : s.advance.lp.cycle = s.lp.cycle.map LocalCycle.tick := rfl
      rw [hcycle]
      cases hc : s.lp.cycle with
      | none => rfl
      | some c => rw [Option.map_some, LocalCycle.tick_of_not_held fun w n => hnot c w n hc]

end Sys2Proof.Machine
end

section
/-!
The receiver's rows and a received frame's way into the hold (R5 to R11, R17, R26 to R29, R158 to R160).
-/

namespace Sys2Proof.Machine

/-! ### The rows of the line but FRAME_RECEIVED -/

theorem State.recordEvent_modLi_of_runs {s : State} {li : LineInterface} (hruns : li.line.runs) (htime : li.lineTime = s.li.lineTime)
    (f : EventFields) : ({ s with li := li } : State).recordEvent f = { s with li := li, en := s.eventOf f } := by
  rw [State.recordEvent_of_runs hruns]
  simp only [State.eventOf, State.eventIn, htime]

section Rows
variable {s : State} (hruns : s.li.line.runs)
include hruns

theorem State.frameOpen_of_frame {bits : List Bit} (hrx : s.li.rx = .frame bits) : s.frameOpen = true := by
  simp [State.frameOpen, LineState.receives_iff.2 hruns, hrx, Receiver.collecting]

theorem exec_openingDelimiter {c : Option Nat} (hrx : s.li.rx = .hunt c) :
    exec .openingDelimiter s =
      .next { s with li := { s.li with rx := .frame [], recessiveRun := 0, dominantRun := 1,
                                       yield := s.li.yield && s.len } } := by
  have hopen : (s.li.line.receives && !s.li.rx.collecting) = true := by
    simp [LineState.receives_iff.2 hruns, hrx, Receiver.collecting]
  rw [exec, execOpeningDelimiter, if_pos hopen]
  rfl

theorem exec_stuffViolation {bits : List Bit} (hrx : s.li.rx = .frame bits) :
    exec (.stuffViolation .sevenDominant) s =
      .next { s with li := { s.li with rx := .hunt none, recessiveRun := 0, dominantRun := max 7 s.li.dominantRun },
                     en := if s.len then s.en else s.en.bump .stuffErrors 1 } ∧
    exec (.stuffViolation .missingAtClosing) s =
      .next { s with li := s.li.closed, en := if s.len then s.en else s.en.bump .stuffErrors 1 } := by
  have hopen := State.frameOpen_of_frame hruns hrx
  constructor <;> rw [exec, execStuffViolation, if_pos hopen] <;> cases hlen : s.len <;>
    simp only [show s.drives = _ from hlen] <;> rfl

theorem exec_abort {bits : List Bit} (hrx : s.li.rx = .frame bits) :
    exec .abort s =
      .next { s with li := { s.li with rx := .hunt none, recessiveRun := max 8 s.li.recessiveRun, dominantRun := 0 },
                     en := if s.len then s.en else s.en.bump .aborts 1 } := by
  rw [exec, execAbort, if_pos (State.frameOpen_of_frame hruns hrx)]
  cases hlen : s.len <;> simp only [show s.drives = _ from hlen] <;> rfl

theorem exec_lineStuck :
    exec .lineStuck s =
      .next { s with li := { s.li with recessiveRun := 0, dominantRun := 32, stuck := true },
                     en := if s.li.stuck then s.en else s.eventOf { cause := .lineStuck } } := by
  rw [exec, execLineStuck, if_pos (LineState.receives_iff.2 hruns)]
  cases hstuck : s.li.stuck with
  | true => rfl
  | false =>
    exact congrArg Host.Outcome.next (State.recordEvent_modLi_of_runs
      (li := { s.li with recessiveRun := 0, dominantRun := 32, stuck := true }) hruns rfl _)

theorem exec_lineIdle :
    exec .lineIdle s =
      .next { s with li := { s.li with recessiveRun := max 16 s.li.recessiveRun, dominantRun := 0, stuck := false } } := by
  rw [exec, execLineIdle, if_pos (LineState.receives_iff.2 hruns)]
  rfl

theorem exec_yieldIntervalExpiry :
    exec .yieldIntervalExpiry s =
      .next { s with li := { s.li with recessiveRun := 48, dominantRun := 0, stuck := false, yield := false } } := by
  rw [exec, execYieldIntervalExpiry, if_pos (LineState.receives_iff.2 hruns)]
  rfl

end Rows

/-- Settles O11. -/
theorem lineRowsAct : Obligations.LineRowsAct :=
  ⟨fun _ _ hruns hrx => exec_openingDelimiter hruns hrx,
    fun _ _ hruns hrx => ⟨(exec_stuffViolation hruns hrx).1, (exec_stuffViolation hruns hrx).2, exec_abort hruns hrx⟩,
    fun _ hruns => ⟨exec_lineStuck hruns, exec_lineIdle hruns, exec_yieldIntervalExpiry hruns⟩⟩

/-! ### FRAME_RECEIVED (R7) -/

/-- The state with the line as a closing delimiter leaves it. -/
abbrev State.lineClosed (s : State) : State := { s with li := s.li.closed }

section Received
variable {s : State} {bits stuffed : List Bit} (hruns : s.li.line.runs) (hrx : s.li.rx = .frame bits)
  (hok : stuffedContentOk stuffed = true)
include hruns hrx hok

theorem exec_frameReceived_of_len (hlen : s.len = true) : exec (.frameReceived stuffed) s = .next s.lineClosed := by
  have hopen : (s.frameOpen && stuffedContentOk stuffed) = true := by
    rw [State.frameOpen_of_frame hruns hrx, hok, Bool.and_self]
  rw [exec, execFrameReceived, if_pos hopen]
  simp only [show s.drives = _ from hlen]
  rfl

theorem exec_frameReceived_of_not_len (hlen : s.len = false) :
    exec (.frameReceived stuffed) s = .next (s.lineClosed.closeFrame stuffed) := by
  have hopen : (s.frameOpen && stuffedContentOk stuffed) = true := by
    rw [State.frameOpen_of_frame hruns hrx, hok, Bool.and_self]
  rw [exec, execFrameReceived, if_pos hopen]
  simp only [show s.drives = _ from hlen]
  rfl

/-- A good frame goes to the filter (R7, R10). -/
theorem exec_frameReceived_of_good {content : List Bit} {f : Frame} (hlen : s.len = false)
    (hcontent : destuff stuffed = some content) (hgood : judgeContent content = .good f) :
    exec (.frameReceived stuffed) s = .next (s.lineClosed.filterFrame f) := by
  rw [exec_frameReceived_of_not_len hruns hrx hok hlen, State.closeFrame, hcontent]
  simp only [hgood]

end Received

/-- Settles O12. -/
theorem badContentIsCounted : Obligations.BadContentIsCounted := by
  intro s bits stuffed hruns hrx hok
  refine ⟨exec_frameReceived_of_len hruns hrx hok, fun hlen => ?_⟩
  rw [exec_frameReceived_of_not_len hruns hrx hok hlen, State.closeFrame]
  refine ⟨fun hnone => by rw [hnone]; rfl, fun content hcontent => ?_⟩
  rw [hcontent]
  exact ⟨fun h => by simp only [h]; rfl, fun h => by simp only [h]; rfl, fun h => by simp only [h]; rfl⟩

/-! ### The filter and the hold (R10, R26 to R29) -/

section Filter
variable {s : State} {f : Frame}

theorem State.filterFrame_of_own (h : f.source = s.station) :
    s.filterFrame f = s.recordEvent { cause := .duplicateStation, station := some s.station } := by
  rw [State.filterFrame, if_pos h]

theorem State.filterFrame_of_foreign_domain (h : f.source ≠ s.station)
    (hdomain : s.lp.params.domainSet.getLsbD f.domain.toNat = false) : s.filterFrame f = s := by
  rw [State.filterFrame, if_neg h, hdomain]
  rfl

theorem State.filterFrame_of_other_destination (h : f.source ≠ s.station) {d u k sk : Byte} {p : List Byte}
    (hbody : f.body = .message d u k sk p) (hown : d ≠ s.station) (hall : d ≠ 31) : s.filterFrame f = s := by
  rw [State.filterFrame, if_neg h]
  split
  · rfl
  · simp only [hbody, hown, hall, or_self, if_false]

theorem State.filterFrame_of_passes (h : f.source ≠ s.station)
    (hdomain : s.lp.params.domainSet.getLsbD f.domain.toNat = true)
    (hdestination : ∀ (d u k sk : Byte) (p : List Byte), f.body = .message d u k sk p → d = s.station ∨ d = 31) :
    s.filterFrame f = s.holdFrame f := by
  rw [State.filterFrame, if_neg h, hdomain]
  split
  · next heq => cases heq
  · split
    · next d u k sk p hbody => rw [if_pos (hdestination d u k sk p hbody)]
    · rfl

theorem State.holdFrame_of_full {x y z : Frame} (hslots : s.rh.slots = [x, y, z]) :
    s.holdFrame f = (({ s with rh := { s.rh with slots := [x, y, f] } } : State).count .overruns).recordEvent
      { cause := .holdOverrun, station := some z.source } := by
  simp [State.holdFrame, hslots, Config.holdSlots]

theorem State.holdFrame_of_room (hroom : s.rh.slots.length < 3) :
    s.holdFrame f = ({ s with rh := { s.rh with slots := s.rh.slots ++ [f] } } : State).resumeHold := by
  have hroom' : s.rh.slots.length < Config.holdSlots := hroom
  rw [State.holdFrame, if_pos hroom']

theorem State.runHold_of_work (h : s.rh.work ≠ none) (n : Nat) : s.runHold n = s := by
  obtain ⟨wk, hwk⟩ := Option.ne_none_iff_exists'.1 h
  cases n with
  | zero => rfl
  | succ n => simp only [State.runHold, hwk]

theorem State.runHold_of_empty (h : s.rh.slots = []) (n : Nat) : s.runHold n = s := by
  cases n with
  | zero => rfl
  | succ n =>
    simp only [State.runHold, h]
    split
    · next hcons => cases hcons
    · rfl

/-- R28: at an empty hold the frame is handled, and leaves unless it waits for a write. -/
theorem State.holdFrame_of_empty (h : s.rh = { slots := [], work := none }) :
    let t := ({ s with rh := { slots := [f], work := none } } : State).handleFrame f
    (t.rh.work = none → s.holdFrame f = t.popHold) ∧ (t.rh.work ≠ none → s.holdFrame f = t) := by
  intro t
  have hslots : s.rh.slots = [] := by rw [h]
  have hheld : s.holdFrame f = ({ s with rh := { slots := [f], work := none } } : State).runHold 1 := by
    rw [State.holdFrame_of_room (by rw [hslots]; decide), h]
    rfl
  have hrun : s.holdFrame f = match t.rh.work with
      | none => t.popHold.runHold 0
      | some _ => t := hheld
  rw [hrun]
  exact ⟨fun hw => by rw [hw]; rfl, fun hw => by
    obtain ⟨wk, hwk⟩ := Option.ne_none_iff_exists'.1 hw
    rw [hwk]⟩

theorem State.handleFrame_of_base {b : Word} (hbase : f.body.base = some b) :
    (s.maps.exact f.domain b = none → s.handleFrame f = s) ∧
      ∀ w : WinId, s.maps.exact f.domain b = some w → s.handleFrame f = (s.handleFor w f.source f.body).settleGrants := by
  unfold State.handleFrame
  cases hbody : f.body <;> rw [hbody] at hbase <;> cases hbase <;>
    exact ⟨fun h => by simp only [h], fun w h => by simp only [h]⟩

theorem State.handleFrame_of_message {d u k sk : Byte} {p : List Byte} (hbody : f.body = .message d u k sk p) :
    s.handleFrame f = s.handleMessage f.source d u k sk p := by
  simp only [State.handleFrame, hbody]

end Filter

/-- Settles O14. -/
theorem goodFramesAreFilteredAndHeld : Obligations.GoodFramesAreFilteredAndHeld := by
  intro s bits stuffed content f hruns hrx hlen hok hcontent hgood
  rw [exec_frameReceived_of_good hruns hrx hok hlen hcontent hgood]
  refine ⟨fun hown => ?_, fun hother hdomain => ?_, fun hother hdomain => ⟨fun d u k sk p hbody hown hall => ?_, fun hdest => ?_⟩⟩
  · rw [State.filterFrame_of_own (s := s.lineClosed) hown]
    exact congrArg Host.Outcome.next (State.recordEvent_of_runs (s := s.lineClosed) hruns _)
  · rw [State.filterFrame_of_foreign_domain (s := s.lineClosed) hother hdomain]
  · rw [State.filterFrame_of_other_destination (s := s.lineClosed) hother hbody hown hall]
  rw [State.filterFrame_of_passes (s := s.lineClosed) hother hdomain hdest]
  refine ⟨fun x y z hslots => ?_, fun hwork hroom => ?_, fun b hempty hbase hnone => ?_, fun b w hempty hbase hw => ?_⟩
  · rw [State.holdFrame_of_full (s := s.lineClosed) hslots]
    rw [State.recordEvent_of_runs (by exact hruns)]
    rfl
  · rw [State.holdFrame_of_room (s := s.lineClosed) hroom, State.resumeHold, State.runHold_of_work (by exact hwork)]
  · have hhandled := (State.handleFrame_of_base (s := { s.lineClosed with rh := { slots := [f], work := none } }) hbase).1 hnone
    obtain ⟨hends, -⟩ := State.holdFrame_of_empty (s := s.lineClosed) (f := f) hempty
    rw [hhandled] at hends
    rw [hends rfl, State.popHold]
    exact congrArg (fun rh => Host.Outcome.next { s.lineClosed with rh := rh }) hempty.symm
  · intro t
    have hhandled : ({ s.lineClosed with rh := { slots := [f], work := none } } : State).handleFrame f = t :=
      (State.handleFrame_of_base (s := { s.lineClosed with rh := { slots := [f], work := none } }) hbase).2 w hw
    have hhold := State.holdFrame_of_empty (s := s.lineClosed) (f := f) hempty
    rw [hhandled] at hhold
    clear_value t
    exact ⟨fun hwork => congrArg Host.Outcome.next (hhold.1 hwork), fun hwork => congrArg Host.Outcome.next (hhold.2 hwork)⟩

/-! ### A received MESSAGE (R159, R160) -/

theorem State.accepts_iff (s : State) (d k sk : Byte) :
    s.accepts d k sk = true ↔ d = s.station ∨ d = 31 ∧ ∃ i : Fin 6, s.mu.filters[i].enable = true ∧
      s.mu.filters[i].kind = k ∧ (s.mu.filters[i].subkind = 255 ∨ s.mu.filters[i].subkind = sk) := by
  have hany : (s.mu.filters.toList.any fun x => x.matchesKind k sk) = true ↔
      ∃ i : Fin 6, (s.mu.filters[i]).matchesKind k sk = true := by
    rw [List.any_eq_true]
    constructor
    · rintro ⟨x, hx, hm⟩
      obtain ⟨i, hi, rfl⟩ := List.getElem_of_mem hx
      exact ⟨⟨i, by simpa using hi⟩, by simpa using hm⟩
    · rintro ⟨i, hm⟩
      exact ⟨_, Vector.mem_toList_iff.2 (Vector.getElem_mem i.isLt), hm⟩
  rw [State.accepts, Bool.or_eq_true, Bool.and_eq_true, hany]
  simp only [MessageFilter.matchesKind, Bool.or_eq_true, Bool.and_eq_true, decide_eq_true_eq, and_assoc]

section Message
variable {s : State} {m : InMessage}

theorem State.acceptMessage_of_room (h : s.mu.inFifo.length < 8) :
    s.acceptMessage m =
      { s with mu := { s.mu with inFifo := s.mu.inFifo ++ [m] },
               en := if s.mu.inFifo = [] then
                   { s.en with pending := s.en.pending ||| (1 <<< s.lp.params.messageVector.toNat) }
                 else s.en } := by
  have hroom : s.mu.inFifo.length < Config.inFifoSize := h
  simp only [State.acceptMessage, if_pos hroom]
  split <;> rfl

theorem State.acceptMessage_of_full (hruns : s.li.line.runs) (h : 8 ≤ s.mu.inFifo.length) :
    s.acceptMessage m =
      { s with en := s.eventIn (s.en.bump .msgDrops 1) { cause := .messageOverflow, station := some m.source } } := by
  have hfull : ¬s.mu.inFifo.length < Config.inFifoSize := not_lt.2 h
  simp only [State.acceptMessage, if_neg hfull]
  rw [State.recordEvent_of_runs (by exact hruns)]
  rfl

theorem State.acceptMessage_modRh (rh : ReceiveHold) :
    ({ s with rh := rh } : State).acceptMessage m = { s.acceptMessage m with rh := rh } := by
  unfold State.acceptMessage
  split
  · dsimp only
    split <;> rfl
  · rfl

theorem State.handleMessage_modRh (rh : ReceiveHold) (source : Station) (d u k sk : Byte) (p : List Byte) :
    ({ s with rh := rh } : State).handleMessage source d u k sk p = { s.handleMessage source d u k sk p with rh := rh } := by
  have haccepts : ({ s with rh := rh } : State).accepts d k sk = s.accepts d k sk := rfl
  rw [State.handleMessage, State.handleMessage, haccepts]
  split
  · exact State.acceptMessage_modRh rh
  · rfl

@[simp] theorem State.handleMessage_rh (source : Station) (d u k sk : Byte) (p : List Byte) :
    (s.handleMessage source d u k sk p).rh = s.rh := by
  have hkeeps := State.handleMessage_modRh (s := s) s.rh source d u k sk p
  exact (congrArg State.rh hkeeps :)

/-- A MESSAGE never waits for a write: at an empty hold its handling leaves the hold as it was. -/
theorem State.holdFrame_of_message {f : Frame} {d u k sk : Byte} {p : List Byte}
    (hempty : s.rh = { slots := [], work := none }) (hbody : f.body = .message d u k sk p) :
    s.holdFrame f = s.handleMessage f.source d u k sk p := by
  have hhandled := State.handleFrame_of_message (s := { s with rh := { slots := [f], work := none } }) hbody
  obtain ⟨hends, -⟩ := State.holdFrame_of_empty (f := f) hempty
  rw [hhandled, State.handleMessage_modRh] at hends
  rw [hends rfl]
  exact congrArg (fun rh => { s.handleMessage f.source d u k sk p with rh := rh })
    (hempty.symm.trans (State.handleMessage_rh f.source d u k sk p).symm)

end Message

/-- Settles O15. -/
theorem receivedMessagesJoinTheFifo : Obligations.ReceivedMessagesJoinTheFifo := by
  intro s bits stuffed content f d u k sk p hruns hrx hlen hok hcontent hgood hbody hother hdomain hempty m matched
  have haccepts : s.lineClosed.accepts d k sk = true ↔ d = s.station ∨ d = 31 ∧ matched :=
    State.accepts_iff s.lineClosed d k sk
  have hexec : d = s.station ∨ d = 31 →
      exec (.frameReceived stuffed) s = .next (s.lineClosed.handleMessage f.source d u k sk p) := by
    intro hdest
    rw [exec_frameReceived_of_good hruns hrx hok hlen hcontent hgood,
      State.filterFrame_of_passes (s := s.lineClosed) hother hdomain, State.holdFrame_of_message (s := s.lineClosed) hempty hbody]
    intro d' u' k' sk' p' hbody'
    cases hbody.symm.trans hbody'
    exact hdest
  refine ⟨fun hmatch => ?_, fun hall hown hno => ?_⟩
  · have hpos := haccepts.2 hmatch
    rw [hexec (hmatch.imp_right And.left), State.handleMessage, if_pos hpos]
    exact ⟨fun hroom => congrArg _ (State.acceptMessage_of_room (s := s.lineClosed) hroom),
      fun hfull => congrArg _ (State.acceptMessage_of_full (s := s.lineClosed) hruns hfull)⟩
  · have hneg : ¬s.lineClosed.accepts d k sk = true := fun h =>
      (haccepts.1 h).elim hown fun h => hno h.2
    rw [hexec (.inr hall), State.handleMessage, if_neg hneg]

end Sys2Proof.Machine
end

section
/-!
Frame contents on the line: bytes and bits, stuffing, bodies and headers, and the four checks of R7
(R3, R6 to R9, R192, R193).
-/

namespace Sys2Proof.Machine

/-! ### Bytes, words and bits -/

theorem byteOfBits_bitsOfByte (b : Byte) :
    byteOfBits (b.getLsbD 7) (b.getLsbD 6) (b.getLsbD 5) (b.getLsbD 4) (b.getLsbD 3) (b.getLsbD 2) (b.getLsbD 1)
      (b.getLsbD 0) = b := by
  revert b
  decide

@[simp] theorem bytesOfBits_bitsOfBytes (bytes : List Byte) : bytesOfBits (bitsOfBytes bytes) = bytes := by
  induction bytes with
  | nil => rfl
  | cons b rest ih => simp only [bitsOfBytes, bitsOfByte, List.cons_append, List.nil_append, bytesOfBits, ih, byteOfBits_bitsOfByte]

@[simp] theorem length_bitsOfBytes (bytes : List Byte) : (bitsOfBytes bytes).length = 8 * bytes.length := by
  induction bytes with
  | nil => rfl
  | cons b rest ih => simp [bitsOfBytes, bitsOfByte, ih]; omega

theorem getLsbD_wordOf (low high : Byte) (i : Nat) :
    (wordOf low high).getLsbD i = if i < 8 then low.getLsbD i else high.getLsbD (i - 8) := BitVec.getLsbD_append

@[simp] theorem lowByte_wordOf (low high : Byte) : lowByte (wordOf low high) = low :=
  BitVec.eq_of_getLsbD_eq fun i hi => by
    rw [lowByte, BitVec.getLsbD_setWidth, getLsbD_wordOf]
    simp [hi]

@[simp] theorem highByte_wordOf (low high : Byte) : highByte (wordOf low high) = high :=
  BitVec.eq_of_getLsbD_eq fun i hi => by
    rw [highByte, BitVec.getLsbD_setWidth, BitVec.getLsbD_ushiftRight, getLsbD_wordOf]
    simp [hi]

@[simp] theorem wordOf_lowByte_highByte (x : Word) : wordOf (lowByte x) (highByte x) = x := by
  refine BitVec.eq_of_getLsbD_eq fun i hi => ?_
  rw [getLsbD_wordOf]
  interval_cases i <;> simp [lowByte, highByte]

@[simp] theorem bytesOfWord_wordOf (low high : Byte) : bytesOfWord (wordOf low high) = [high, low] := by
  simp [bytesOfWord]

/-! ### Stuffing (R3, R6) -/

theorem stuffFrom_of_six {last b : Bit} {n : Nat} (rest : List Bit) (h : (if b = last then n + 1 else 1) = 6) :
    stuffFrom last n (b :: rest) = b :: (!b) :: stuffFrom (!b) 1 rest := by
  simp only [stuffFrom]
  rw [if_pos h]

theorem stuffFrom_of_not_six {last b : Bit} {n : Nat} (rest : List Bit) (h : (if b = last then n + 1 else 1) ≠ 6) :
    stuffFrom last n (b :: rest) = b :: stuffFrom b (if b = last then n + 1 else 1) rest := by
  simp only [stuffFrom]
  rw [if_neg h]

theorem destuffFrom_stuffFrom (bits : List Bit) (last : Bit) {n : Nat} (hn : n < 6) :
    destuffFrom last n (stuffFrom last n bits) = some bits := by
  induction bits generalizing last n with
  | nil => simp [stuffFrom, destuffFrom, hn.ne]
  | cons b rest ih =>
    have hrun : (if b = last then n + 1 else 1) ≤ 6 := by split <;> omega
    by_cases hsix : (if b = last then n + 1 else 1) = 6
    · rw [stuffFrom_of_six rest hsix, destuffFrom, if_neg hn.ne, hsix, destuffFrom, if_pos rfl, ih (!b) (by decide), Option.map_some]
    · rw [stuffFrom_of_not_six rest hsix, destuffFrom, if_neg hn.ne, ih b (lt_of_le_of_ne hrun hsix), Option.map_some]

theorem noSevenRun_stuffFrom (bits : List Bit) (last : Bit) {n : Nat} (hn : n < 6) :
    noSevenRun last n (stuffFrom last n bits) = true := by
  induction bits generalizing last n with
  | nil => rfl
  | cons b rest ih =>
    have hrun : (if b = last then n + 1 else 1) ≤ 6 := by split <;> omega
    by_cases hsix : (if b = last then n + 1 else 1) = 6
    · have hother : ¬(!b) = b := by cases b <;> simp
      rw [stuffFrom_of_six rest hsix, noSevenRun, hsix, noSevenRun, if_neg hother, ih (!b) (by decide)]
      rfl
    · have hshort : (if b = last then n + 1 else 1) < 7 := hrun.trans_lt (by decide)
      rw [stuffFrom_of_not_six rest hsix, noSevenRun, ih b (lt_of_le_of_ne hrun hsix), decide_eq_true hshort]
      rfl

/-! ### Bodies (R193) -/

theorem byteOf_toNat (b : Byte) : byteOf b.toNat = b := by
  rw [byteOf, BitVec.ofNat_toNat, BitVec.setWidth_eq]

theorem toNat_byteOf {n : Nat} (h : n < 256) : (byteOf n).toNat = n := by
  simp [byteOf, Nat.mod_eq_of_lt h]

theorem flagOfByte_flagByte (b : Bool) : flagOfByte (flagByte b) = some b := by
  cases b <;> rfl

theorem flagByte_of_flagOfByte {x : Byte} {b : Bool} (h : flagOfByte x = some b) : flagByte b = x := by
  unfold flagOfByte at h
  split at h
  · cases h; simp [flagByte, *]
  · split at h <;> cases h; simp [flagByte, *]

theorem originOfCode_code (o : Origin) : originOfCode o.code = some o := by
  cases o <;> rfl

theorem code_of_originOfCode {x : Byte} {o : Origin} (h : originOfCode x = some o) : o.code = x := by
  unfold originOfCode at h
  split at h
  · cases h; simp [Origin.code, *]
  split at h
  · cases h; simp [Origin.code, *]
  split at h
  · cases h; simp [Origin.code, *]
  split at h
  · cases h; simp [Origin.code, *]
  · cases h

theorem isPageCount_iff {n : Byte} : isPageCount n = true ↔ 1 ≤ n.toNat ∧ n.toNat ≤ 64 := by
  simp [isPageCount]

theorem isStation_iff {n : Byte} : isStation n = true ↔ 1 ≤ n.toNat ∧ n.toNat ≤ 30 := by
  simp [isStation]

theorem takeRecordBytes_cons {n : Nat} {s1 s0 o1 o0 l : Byte} {rest : List Byte} :
    takeRecordBytes (n + 1) (s1 :: s0 :: o1 :: o0 :: l :: rest) =
      if 1 ≤ l.toNat ∧ l.toNat ≤ 64 ∧ l.toNat ≤ rest.length ∧ (wordOf o0 o1).toNat ≤ 16383 then
        (takeRecordBytes n (rest.drop l.toNat)).map
          ({ seq := wordOf s0 s1, offset := wordOf o0 o1, data := rest.take l.toNat } :: ·)
      else none := rfl

theorem takeRecordBytes_sound {n : Nat} {bytes : List Byte} {rs : List PostRecord} (h : takeRecordBytes n bytes = some rs) :
    rs.length = n ∧ (∀ r ∈ rs, r.legal) ∧ rs.flatMap PostRecord.bytes = bytes := by
  fun_induction takeRecordBytes n bytes generalizing rs with
  | case1 bytes hempty => cases h; simp_all
  | case2 bytes hempty => cases h
  | case3 n s1 s0 o1 o0 l rest hfits ih =>
    obtain ⟨rs', hrs', rfl⟩ := Option.map_eq_some_iff.1 h
    obtain ⟨hlen, hlegal, hbytes⟩ := ih hrs'
    obtain ⟨hpos, hmost, hrest, hoffset⟩ := hfits
    have htake : (rest.take l.toNat).length = l.toNat := by simp [hrest]
    refine ⟨by simp [hlen], ?_, ?_⟩
    · simp only [List.mem_cons, forall_eq_or_imp]
      exact ⟨⟨htake.symm ▸ hpos, htake.symm ▸ hmost, hoffset⟩, hlegal⟩
    · simp [List.flatMap_cons, PostRecord.bytes, hbytes, htake, byteOf_toNat]
  | case4 n s1 s0 o1 o0 l rest hfits => cases h
  | case5 n bytes hshort => cases h

theorem takeRecordBytes_complete {rs : List PostRecord} (hlegal : ∀ r ∈ rs, r.legal) :
    takeRecordBytes rs.length (rs.flatMap PostRecord.bytes) = some rs := by
  induction rs with
  | nil => rfl
  | cons r rs ih =>
    obtain ⟨hpos, hmost, hoffset⟩ := hlegal r List.mem_cons_self
    have hl : (byteOf r.data.length).toNat = r.data.length := toNat_byteOf (by omega)
    have htail := ih fun x hx => hlegal x (List.mem_cons_of_mem _ hx)
    simp only [List.flatMap_cons, PostRecord.bytes, bytesOfWord, List.cons_append, List.nil_append, List.length_cons,
      takeRecordBytes_cons, hl, wordOf_lowByte_highByte]
    rw [if_pos ⟨hpos, hmost, by simp, hoffset⟩]
    simp [htail]

theorem readBody_sound {kind : Nat} {u : BitVec 2} {bytes : List Byte} {b : Body} (h : readBody kind u bytes = some b) :
    b.kind = kind ∧ b.legal u ∧ b.bytes = bytes := by
  unfold readBody at h
  split at h
  · split at h
    · next hcount =>
      obtain ⟨rs, hrs, rfl⟩ := Option.map_eq_some_iff.1 h
      obtain ⟨hlen, hlegal, hbytes⟩ := takeRecordBytes_sound hrs
      exact ⟨rfl, ⟨hlen ▸ hcount.1, hlen ▸ hcount.2, hlegal⟩, by simp [Body.bytes, hlen, hbytes, byteOf_toNat]⟩
    · cases h
  · cases h; exact ⟨rfl, trivial, by simp [Body.bytes]⟩
  · split at h <;> cases h
    next hcount => exact ⟨rfl, isPageCount_iff.1 hcount, by simp [Body.bytes]⟩
  · split at h
    · next hcount =>
      obtain ⟨o, ho, rfl⟩ := Option.map_eq_some_iff.1 h
      exact ⟨rfl, isPageCount_iff.1 hcount, by simp [Body.bytes, code_of_originOfCode ho]⟩
    · cases h
  · split at h <;> cases h
    next hdata => exact ⟨rfl, hdata.symm, by simp [Body.bytes]⟩
  · split at h
    · next hcount =>
      obtain ⟨a, ha, rfl⟩ := Option.map_eq_some_iff.1 h
      exact ⟨rfl, hcount, by simp [Body.bytes, flagByte_of_flagOfByte ha]⟩
    · cases h
  · cases h; exact ⟨rfl, trivial, by simp [Body.bytes]⟩
  · split at h
    · next hstation =>
      obtain ⟨a, ha, rfl⟩ := Option.map_eq_some_iff.1 h
      exact ⟨rfl, isStation_iff.1 hstation, by simp [Body.bytes, flagByte_of_flagOfByte ha]⟩
    · cases h
  · split at h <;> cases h
    next hstation => exact ⟨rfl, isStation_iff.1 hstation, by simp [Body.bytes]⟩
  · cases h; exact ⟨rfl, trivial, by simp [Body.bytes]⟩
  · split at h <;> cases h
    next hmessage =>
    obtain ⟨hd, hd', hu, hl, hp⟩ := hmessage
    exact ⟨rfl, ⟨hd, hd', hu, hp ▸ hl⟩, by simp [Body.bytes, hp, byteOf_toNat]⟩
  · cases h

theorem readBody_complete {u : BitVec 2} {b : Body} (h : b.legal u) : readBody b.kind u b.bytes = some b := by
  cases b with
  | update b g rs =>
    obtain ⟨hpos, hmost, hlegal⟩ := h
    have hn : (byteOf rs.length).toNat = rs.length := toNat_byteOf (by omega)
    simp [Body.kind, Body.bytes, bytesOfWord, readBody, hn, hpos, hmost, Config.updateRecords, takeRecordBytes_complete hlegal]
  | mark b g l => simp [Body.kind, Body.bytes, bytesOfWord, readBody]
  | refreshReq b n => simp [Body.kind, Body.bytes, bytesOfWord, readBody, isPageCount_iff.2 h]
  | sweepBegin b g i sn n o =>
    simp [Body.kind, Body.bytes, bytesOfWord, readBody, isPageCount_iff.2 h, originOfCode_code]
  | sweepData b i p d => simp [Body.kind, Body.bytes, bytesOfWord, readBody, h.1, h.2]
  | sweepEnd b i n a =>
    have hn : n.toNat ≤ 64 := h
    simp [Body.kind, Body.bytes, bytesOfWord, readBody, hn, flagOfByte_flagByte]
  | claim b => simp [Body.kind, Body.bytes, bytesOfWord, readBody]
  | grant b g q t r =>
    simp [Body.kind, Body.bytes, bytesOfWord, readBody, isStation_iff.2 h, flagOfByte_flagByte]
  | deny b t => simp [Body.kind, Body.bytes, bytesOfWord, readBody, isStation_iff.2 h]
  | takeover b g q => simp [Body.kind, Body.bytes, bytesOfWord, readBody]
  | message d u' k sk p =>
    obtain ⟨hd, hd', hu, hp⟩ := h
    have hl : (byteOf p.length).toNat = p.length := toNat_byteOf (by omega)
    simp [Body.kind, Body.bytes, readBody, hd, hd', hu, hp, hl, Config.payloadBytes]

/-! ### Headers (R9) -/

theorem urgencyOk_kind_iff {u : BitVec 2} {b : Body} : urgencyOk b.kind u = true ↔ b.urgencyLegal u := by
  cases b <;> simp [urgencyOk, Body.kind, Body.urgencyLegal]

theorem Body.kind_le (b : Body) : b.kind ≤ 10 := by
  cases b <;> simp [Body.kind]

theorem getLsbD_fields (u : BitVec 2) (source kind : BitVec 5) (domain : BitVec 4) (i : Nat) :
    ((u ++ source ++ kind ++ domain : BitVec (2 + 5 + 5 + 4)) : Word).getLsbD i =
      if i < 4 then domain.getLsbD i else if i - 4 < 5 then kind.getLsbD (i - 4)
      else if i - 4 - 5 < 5 then source.getLsbD (i - 4 - 5) else u.getLsbD (i - 4 - 5 - 5) := by
  have hdomain : ((u ++ source ++ kind ++ domain : BitVec (2 + 5 + 5 + 4)) : Word).getLsbD i = _ := BitVec.getLsbD_append
  rw [hdomain, BitVec.getLsbD_append, BitVec.getLsbD_append]

theorem getLsbD_header (f : Frame) (i : Nat) :
    f.header.getLsbD i =
      if i < 4 then f.domain.getLsbD i else if i - 4 < 5 then (BitVec.ofNat 5 f.body.kind).getLsbD (i - 4)
      else if i - 4 - 5 < 5 then (f.source.setWidth 5 : BitVec 5).getLsbD (i - 4 - 5)
      else f.urgency.getLsbD (i - 4 - 5 - 5) := getLsbD_fields _ _ _ _ i

theorem header_of_fields (h : Word) :
    ((((h >>> 14).setWidth 2 : BitVec 2) ++ ((((h >>> 9).setWidth 5 : BitVec 5).setWidth 8 : Byte).setWidth 5 : BitVec 5) ++
      BitVec.ofNat 5 (headerKind h)) ++ (h.setWidth 4 : BitVec 4) : Word) = h := by
  have hkind : BitVec.ofNat 5 (headerKind h) = (h >>> 4).setWidth 5 := by
    rw [headerKind, BitVec.ofNat_toNat, BitVec.setWidth_eq]
  rw [hkind]
  refine BitVec.eq_of_getLsbD_eq fun i hi => ?_
  rw [getLsbD_fields]
  interval_cases i <;> simp

theorem headerKind_header (f : Frame) : headerKind f.header = f.body.kind := by
  have hkind : headerKind f.header = (BitVec.ofNat 5 f.body.kind).toNat := by
    refine congrArg BitVec.toNat (BitVec.eq_of_getLsbD_eq fun i hi => ?_)
    rw [BitVec.getLsbD_setWidth, BitVec.getLsbD_ushiftRight, getLsbD_header]
    interval_cases i <;> simp
  rw [hkind, BitVec.toNat_ofNat, Nat.mod_eq_of_lt (by have := f.body.kind_le; omega)]

theorem urgency_of_header (f : Frame) : ((f.header >>> 14).setWidth 2 : BitVec 2) = f.urgency := by
  refine BitVec.eq_of_getLsbD_eq fun i hi => ?_
  rw [BitVec.getLsbD_setWidth, BitVec.getLsbD_ushiftRight, getLsbD_header]
  interval_cases i <;> simp

theorem domain_of_header (f : Frame) : (f.header.setWidth 4 : BitVec 4) = f.domain := by
  refine BitVec.eq_of_getLsbD_eq fun i hi => ?_
  rw [BitVec.getLsbD_setWidth, getLsbD_header]
  interval_cases i <;> simp

theorem source_of_header {f : Frame} (h : f.source.toNat < 32) :
    (((f.header >>> 9).setWidth 5 : BitVec 5).setWidth 8 : Station) = f.source := by
  have hfield : ((f.header >>> 9).setWidth 5 : BitVec 5) = f.source.setWidth 5 := by
    refine BitVec.eq_of_getLsbD_eq fun i hi => ?_
    rw [BitVec.getLsbD_setWidth, BitVec.getLsbD_ushiftRight, getLsbD_header]
    interval_cases i <;> simp
  rw [hfield]
  apply BitVec.eq_of_toNat_eq
  simp
  omega

theorem readFrame_sound {header : Word} {body : List Byte} {f : Frame} (h : readFrame header body = some f) :
    f.legal ∧ f.header = header ∧ f.body.bytes = body := by
  simp only [readFrame] at h
  split at h
  · next hok =>
    rw [Bool.and_eq_true, isStation_iff] at hok
    obtain ⟨hurgency, hlow, hhigh⟩ := hok
    obtain ⟨b, hb, rfl⟩ := Option.map_eq_some_iff.1 h
    obtain ⟨hkind, hlegal, hbytes⟩ := readBody_sound hb
    refine ⟨⟨hlow, hhigh, urgencyOk_kind_iff.1 (hkind ▸ hurgency), hlegal⟩, ?_, hbytes⟩
    rw [Frame.header, hkind]
    exact header_of_fields header
  · cases h

theorem readFrame_complete {f : Frame} (h : f.legal) : readFrame f.header f.body.bytes = some f := by
  obtain ⟨hlow, hhigh, hurgency, hlegal⟩ := h
  have hkind : ((f.header >>> 4).setWidth 5 : BitVec 5).toNat = f.body.kind := headerKind_header f
  simp only [readFrame, hkind, urgency_of_header, source_of_header (hhigh.trans_lt (by decide)), domain_of_header,
    urgencyOk_kind_iff.2 hurgency, isStation_iff.2 ⟨hlow, hhigh⟩, Bool.and_self, if_true, readBody_complete hlegal,
    Option.map_some]

/-! ### The four checks (R7) -/

theorem judgeContent_of_wrong_length {bits : List Bit}
    (h : bits.length % 8 ≠ 0 ∨ bits.length < 32 ∨ 2272 < bits.length) : judgeContent bits = .malformed := by
  have hlen : bits.length % 8 ≠ 0 ∨ bits.length < 4 * 8 ∨ Config.maxContent * 8 < bits.length := h
  simp only [judgeContent, if_pos hlen]

theorem judgeContent_of_bytes {h1 h0 c1 c0 : Byte} {body : List Byte} (hbody : body.length ≤ 280) :
    judgeContent (bitsOfBytes ([h1, h0] ++ body ++ [c1, c0])) =
      if crc ([h1, h0] ++ body) ≠ wordOf c0 c1 then .crcError
      else if 10 < headerKind (wordOf h0 h1) then .unknownKind
      else (readFrame (wordOf h0 h1) body).elim .malformed .good := by
  have hlen : (bitsOfBytes ([h1, h0] ++ body ++ [c1, c0])).length = 8 * (body.length + 4) := by simp
  have hlegal : ¬((bitsOfBytes ([h1, h0] ++ body ++ [c1, c0])).length % 8 ≠ 0 ∨
      (bitsOfBytes ([h1, h0] ++ body ++ [c1, c0])).length < 4 * 8 ∨
      Config.maxContent * 8 < (bitsOfBytes ([h1, h0] ++ body ++ [c1, c0])).length) := by
    have hmax : Config.maxContent = 284 := rfl
    rw [hlen, hmax]
    omega
  have hfront : ([h1, h0] ++ body ++ [c1, c0]).dropLast.dropLast = [h1, h0] ++ body := by
    rw [show [h1, h0] ++ body ++ [c1, c0] = ([h1, h0] ++ body ++ [c1]) ++ [c0] by simp, List.dropLast_concat,
      List.dropLast_concat]
  have hback : ([h1, h0] ++ body ++ [c1, c0]).drop (([h1, h0] ++ body ++ [c1, c0]).length - 2) = [c1, c0] := by
    simp
  simp only [judgeContent, if_neg hlegal, bytesOfBits_bitsOfBytes, hfront, hback]
  cases hread : readFrame (wordOf h0 h1) body <;> simp [hread]

/-- Settles O13. -/
theorem fourChecksInOrder : Obligations.FourChecksInOrder := by
  refine ⟨fun bits => judgeContent_of_wrong_length, ?_⟩
  intro h1 h0 c1 c0 body hbody bits kind
  have hjudge : judgeContent bits = _ := judgeContent_of_bytes (h1 := h1) (h0 := h0) (c1 := c1) (c0 := c0) hbody
  rw [hjudge]
  have hkind : headerKind (wordOf h0 h1) = kind := rfl
  have hword (x y : Byte) : wordOf x y = y ++ x := rfl
  rw [hkind, hword, hword]
  split
  · rfl
  split
  · rfl
  cases hread : readFrame (h1 ++ h0) body with
  | none => rfl
  | some f =>
    obtain ⟨hlegal, hheader, hbytes⟩ := readFrame_sound hread
    refine ⟨rfl, hlegal, hheader, ?_⟩
    rw [Frame.headerBody, hheader, hbytes, ← hword, bytesOfWord_wordOf]

theorem flatMap_bytes_length_le {rs : List PostRecord} (h : ∀ r ∈ rs, r.legal) :
    (rs.flatMap PostRecord.bytes).length ≤ 69 * rs.length := by
  induction rs with
  | nil => simp
  | cons r rs ih =>
    obtain ⟨-, hmost, -⟩ := h r List.mem_cons_self
    have htail := ih fun x hx => h x (List.mem_cons_of_mem _ hx)
    simp only [List.flatMap_cons, List.length_append, List.length_cons, PostRecord.bytes, bytesOfWord, List.length_nil]
    omega

theorem Body.length_bytes_le {u : BitVec 2} {b : Body} (h : b.legal u) : b.bytes.length ≤ 280 := by
  cases b with
  | update b g rs =>
    have hrs := flatMap_bytes_length_le h.2.2
    have hcount := h.2.1
    simp only [Body.bytes, bytesOfWord, List.length_append, List.length_cons, List.length_nil]
    omega
  | sweepData b i p d => simp [Body.bytes, bytesOfWord, h.2]
  | message d u' k sk p =>
    obtain ⟨-, -, -, hp⟩ := h
    simp [Body.bytes]
    omega
  | mark | refreshReq | sweepBegin | sweepEnd | claim | grant | deny | takeover => simp [Body.bytes, bytesOfWord]

theorem judgeContent_of_legal {f : Frame} (h : f.legal) : judgeContent (bitsOfBytes f.content) = .good f := by
  have hbody := Body.length_bytes_le h.2.2.2
  have hjudge := judgeContent_of_bytes (h1 := highByte f.header) (h0 := lowByte f.header)
    (c1 := highByte (crc f.headerBody)) (c0 := lowByte (crc f.headerBody)) hbody
  have hcontent : [highByte f.header, lowByte f.header] ++ f.body.bytes ++
      [highByte (crc f.headerBody), lowByte (crc f.headerBody)] = f.content := rfl
  have hfront : [highByte f.header, lowByte f.header] ++ f.body.bytes = f.headerBody := rfl
  rw [hcontent, hfront, wordOf_lowByte_highByte, wordOf_lowByte_highByte, headerKind_header, readFrame_complete h,
    if_neg (by simp), if_neg (by have := f.body.kind_le; omega)] at hjudge
  exact hjudge

/-- Settles O55. -/
theorem framesSurviveTheLine : Obligations.FramesSurviveTheLine := fun _ hlegal =>
  ⟨rfl, noSevenRun_stuffFrom _ _ (by decide), destuffFrom_stuffFrom _ _ (by decide), judgeContent_of_legal hlegal⟩

end Sys2Proof.Machine
end

section
/-!
The replica's memory under writes, the replica arbiter, and local cycles on the replica (R32 to R36, R56 to R65, R178).
-/

namespace Sys2Proof.Machine

/-! ### Bytes stored (R32) -/

theorem Memory.writeBytes_cons (m : Replica) (a : Nat) (b : Byte) (rest : List Byte) :
    Memory.writeBytes m a (b :: rest) = Memory.writeBytes (Memory.write m (a % 65536) b) (a + 1) rest := rfl

/-- A byte of a write reads back, also where the write wraps at the end of the replica. -/
theorem Memory.read_writeBytes {m : Replica} {a k : Nat} (bs : List Byte) (h : Memory.wf m = true)
    (hlen : bs.length ≤ 65536) (hk : k < bs.length) :
    Memory.read (Memory.writeBytes m a bs) ((a + k) % 65536) = bs[k] := by
  induction bs generalizing m a k with
  | nil => simp at hk
  | cons b rest ih =>
    have hwf := Memory.wf_write (a := a % 65536) b h (Nat.mod_lt a (by decide))
    have hrest : rest.length < 65536 := by simpa using hlen
    rw [Memory.writeBytes_cons]
    cases k with
    | zero =>
      have hout : ∀ i, i < rest.length → a % 65536 ≠ (a + 1 + i) % 65536 := by omega
      rw [show a + 0 = a from rfl, Memory.read_writeBytes_outside rest hwf hout, Memory.read_write _ _ _ h, if_pos rfl]
      rfl
    | succ k =>
      have hk' : k < rest.length := by simpa using hk
      have hread := ih (a := a + 1) (k := k) hwf hrest.le hk'
      rwa [show a + 1 + k = a + (k + 1) by omega] at hread

theorem Memory.stored_writeBytes {m : Replica} (a : Nat) {bs : List Byte} (h : Memory.wf m = true) (hlen : bs.length ≤ 65536) :
    Memory.stored m (Memory.writeBytes m a bs) a bs :=
  ⟨fun _ hk => Memory.read_writeBytes bs h hlen hk, fun _ hx => Memory.read_writeBytes_outside bs h hx⟩

/-! ### The arbiter (R34, R35) -/

section Arbiter
variable {b : Arbiter}

theorem Arbiter.request_of_free (h : b.granted = none) (r : Requester) (n : Nat) : b.request r n = b.begin r := by
  simp only [Arbiter.request, h]

theorem Arbiter.request_of_granted {g : Requester} (h : b.granted = some g) (r : Requester) (n : Nat) :
    b.request r n = { b with waiting := b.waiting ++ [{ who := r, placed := n }] } := by
  simp only [Arbiter.request, h]

theorem Arbiter.begin_turn (r : Requester) : (b.begin r).turn = if r = .localPort then .internalSide else .localSide := by
  cases r <;> rfl

theorem Arbiter.release_of_choice {r : Requester} (h : b.choose = some r) : b.release = b.begin r := by
  simp only [Arbiter.release, h]

theorem Arbiter.release_of_none (h : b.choose = none) : b.release = { b with granted := none } := by
  simp only [Arbiter.release, h]

theorem Arbiter.choose_of_one {q : Request} (h : b.waiting = [q]) : b.choose = some q.who := by
  cases hq : q.who <;> simp [Arbiter.choose, Arbiter.localWaits, Arbiter.firstInternal, h, hq, Requester.internal]

/-- With the local port and one internal request waiting, the turn decides. -/
theorem Arbiter.choose_by_turn {p q : Request} (h : b.waiting = [p, q]) {r : Requester} (hr : r ≠ .localPort)
    (hwho : (p.who = .localPort ∧ q.who = r) ∨ (p.who = r ∧ q.who = .localPort)) :
    (b.turn = .localSide → b.choose = some .localPort) ∧ (b.turn = .internalSide → b.choose = some r) := by
  have hwaits : b.localWaits = true := by
    rcases hwho with ⟨hp, hq⟩ | ⟨hp, hq⟩ <;> simp [Arbiter.localWaits, h, hp, hq]
  have hfirst : b.firstInternal = some r := by
    cases r with
    | localPort => exact absurd rfl hr
    | writer | sweepReader =>
      rcases hwho with ⟨hp, hq⟩ | ⟨hp, hq⟩ <;> simp [Arbiter.firstInternal, h, hp, hq, Requester.internal]
  exact ⟨fun hturn => by simp only [Arbiter.choose, hwaits, hfirst, hturn],
    fun hturn => by simp only [Arbiter.choose, hwaits, hfirst, hturn]⟩

theorem Arbiter.choose_of_sweep_writer {p q : Request} (h : b.waiting = [p, q]) (hp : p.who = .sweepReader)
    (hq : q.who = .writer) :
    b.choose = if p.placed = q.placed ∧ p.placed ≠ 0 then some .writer else some .sweepReader := by
  simp [Arbiter.choose, Arbiter.localWaits, Arbiter.firstInternal, h, hp, hq, Requester.internal, samePlacing]

theorem Arbiter.choose_of_writer_sweep {p q : Request} (h : b.waiting = [p, q]) (hp : p.who = .writer)
    (hq : q.who = .sweepReader) : b.choose = some .writer := by
  simp [Arbiter.choose, Arbiter.localWaits, Arbiter.firstInternal, h, hp, hq, Requester.internal]

end Arbiter

theorem State.presentBt_of_start {s : State} (hcount : s.li.btCount ≠ 0) {o : OnLine} (ho : s.li.tx.onLine = some o)
    (hsent : o.sent = 0) : s.presentBt = s.li.btCount + 1 := by
  simp [State.presentBt, hcount, ho, hsent]

theorem State.presentBt_of_driven {s : State} (h : ∀ o : OnLine, s.li.tx.onLine = some o → o.sent ≠ 0) :
    s.presentBt = s.li.btCount := by
  cases ho : s.li.tx.onLine with
  | none => simp [State.presentBt, ho]
  | some o => simp [State.presentBt, ho, h o ho]

/-- Settles O33. -/
theorem arbiterServesByTurn : Obligations.ArbiterServesByTurn := by
  refine ⟨fun b => ⟨fun r n h => ?_, fun r g n h => Arbiter.request_of_granted h r n, fun h => ?_, fun q h => ?_,
    fun p q h hwho => ?_, fun p q h hwho => ?_, fun p q h hp hq => ?_, fun p q h hp hq => ?_⟩,
    fun s r => ⟨rfl, fun h => ?_, fun h hstart => ?_, State.presentBt_of_driven⟩⟩
  · rw [Arbiter.request_of_free h]
    exact ⟨rfl, Arbiter.begin_turn r⟩
  · exact Arbiter.release_of_none (by simp [Arbiter.choose, Arbiter.localWaits, Arbiter.firstInternal, h])
  · rw [Arbiter.release_of_choice (Arbiter.choose_of_one h), ← Arbiter.begin_turn (b := b)]
    simp [Arbiter.begin, h]
  · have hchoose := Arbiter.choose_by_turn h hwho.2 (.inl ⟨hwho.1, rfl⟩)
    cases hturn : b.turn with
    | localSide => rw [Arbiter.release_of_choice (hchoose.1 hturn)]; rfl
    | internalSide => rw [Arbiter.release_of_choice (hchoose.2 hturn)]; rfl
  · have hchoose := Arbiter.choose_by_turn h hwho.1 (.inr ⟨rfl, hwho.2⟩)
    cases hturn : b.turn with
    | localSide => rw [Arbiter.release_of_choice (hchoose.1 hturn)]; rfl
    | internalSide => rw [Arbiter.release_of_choice (hchoose.2 hturn)]; rfl
  · have hchoose := Arbiter.choose_of_sweep_writer h hp hq
    split
    · next hsame => rw [Arbiter.release_of_choice (hchoose.trans (if_pos hsame))]; rfl
    · next hsame => rw [Arbiter.release_of_choice (hchoose.trans (if_neg hsame))]; rfl
  · rw [Arbiter.release_of_choice (Arbiter.choose_of_writer_sweep h hp hq)]
    rfl
  · simp [State.presentBt, h]
  · obtain ⟨o, ho, hsent⟩ := hstart
    exact State.presentBt_of_start h ho hsent

/-! ### The port asks the arbiter (R34, R36) -/

/-- A cycle placed at its stage, its request placed, and WAIT set as a replica access begins. -/
theorem State.asks_of_request {s u : State} {c : LocalCycle}
    (hu : u = { s with lp := { s.lp with cycle := some c }, rm := { s.rm with arb := s.rm.arb.request .localPort s.presentBt } }) :
    s.asks u.waitForGrant c := by
  subst hu
  refine ⟨rfl, fun hfree => ?_, fun r hgranted hr => ?_⟩
  · have hbegun := Arbiter.request_of_free hfree .localPort s.presentBt
    simp [State.waitForGrant, State.setWait, State.granted, hbegun, Arbiter.begin]
  · have hplaced := Arbiter.request_of_granted hgranted .localPort s.presentBt
    simp [State.waitForGrant, State.setWait, State.granted, hplaced, hgranted, hr]

theorem inReplica_iff {a : BitVec 16} : inReplica a = true ↔ a.toNat < 0x8000 := by
  rw [inReplica, Bool.not_eq_true', ← Bool.not_eq_true, BitVec.msb_eq_decide, decide_eq_true_eq]
  omega

theorem accessPage_eq (a : BitVec 16) : accessPage a = 2 * a.toNat / 256 := by
  rw [accessPage, evenAddr, Nat.mul_comm]

theorem accessAddr_le (a : BitVec 16) (be : BitVec 2) : accessAddr a be ≤ 2 * a.toNat + 1 := by
  unfold accessAddr evenAddr
  split <;> omega

theorem length_accessBytes_le (be : BitVec 2) (data : Word) : (accessBytes be data).length ≤ 2 := by
  unfold accessBytes
  split <;> split <;> simp

theorem driveWord_of_ne {be : BitVec 2} (h : be ≠ 0) (x : Word) :
    driveWord be x = { low := if be.getLsbD 0 then some (lowByte x) else none,
                       high := if be.getLsbD 1 then some (highByte x) else none } := by
  rw [driveWord, if_neg h]
  rfl

theorem State.beginCycle_eq (s : State) (write : Bool) (a : BitVec 16) (be : BitVec 2) (data : Word) :
    s.beginCycle write a be data .complete = { s with lp := s.lp.served write a be data } := rfl

section Cycle
variable {s : State} {c : LocalCycle} (hcycle : s.lp.cycle = some c)
include hcycle

theorem exec_localReadGrant (hstage : c.stage = .read) (hgranted : s.rm.arb.granted = some .localPort) :
    exec .localReadGrant s =
      .next { s with lp := { s.lp with cycle := some { c with stage := .complete }, wait := false,
                                       dataOut := driveWord c.be (s.replicaWord c.a) },
                     rm := { s.rm with arb := s.rm.arb.release } } := by
  have hgrant : c.stage = .read ∧ s.granted .localPort = true := ⟨hstage, by simp [State.granted, hgranted]⟩
  simp only [exec, execLocalReadGrant, hcycle, if_pos hgrant]
  rfl

theorem exec_localWriteGrant (hstage : c.stage = .privateWrite ∨ ∃ w : WinId, c.stage = .allowedWrite w)
    (hgranted : s.rm.arb.granted = some .localPort) : exec .localWriteGrant s = .next (s.endLocalWrite c) := by
  have hgrant : (c.stage.isPlacedWrite && s.granted .localPort) = true := by
    rcases hstage with h | ⟨w, h⟩ <;> simp [State.granted, hgranted, h, Stage.isPlacedWrite]
  simp only [exec, execLocalWriteGrant, hcycle, if_pos hgrant]

theorem exec_overflowWriteGrant {w : WinId} (hstage : c.stage = .overflowWrite w)
    (hgranted : s.rm.arb.granted = some .localPort) : exec .overflowWriteGrant s = .next (s.endLocalWrite c) := by
  have hgrant : (c.stage.isOverflow && s.granted .localPort) = true := by
    simp [State.granted, hgranted, hstage, Stage.isOverflow]
  simp only [exec, execOverflowWriteGrant, hcycle, if_pos hgrant]

theorem exec_postWaitExpiry {w : WinId} {n : Nat} (hstage : c.stage = .heldWrite w n) :
    exec .postWaitExpiry s =
      .next { s with lp := { s.lp with cycle := some { c with stage := .overflowWrite w } },
                     rm := { s.rm with arb := s.rm.arb.request .localPort s.presentBt } } := by
  simp only [exec, execPostWaitExpiry, hcycle, hstage]
  rfl

theorem exec_localCycleAbandon (hwait : s.lp.wait = true) :
    exec .localCycleAbandon s = .next ((s.endAccess c).modLp LocalPort.idle) := by
  simp only [exec, execLocalCycleAbandon, hcycle, hwait, if_true]

theorem exec_localCycleEnd (hwait : s.lp.wait = false) :
    exec .localCycleEnd s = .next ((s.endAccess c).modLp LocalPort.idle) := by
  simp only [exec, execLocalCycleEnd, hcycle, hwait, Bool.false_eq_true, if_false]

end Cycle

theorem LocalCycle.length_bytes_le (c : LocalCycle) : c.bytes.length ≤ 65536 :=
  (length_accessBytes_le c.be c.data).trans (by decide)

theorem exec_localReplicaRead_inside {s : State} (hport : s.idlePort) {a : BitVec 16} (ha : a.toNat < 0x8000) (be : BitVec 2) :
    exec (.localReplicaRead a be) s = .next (s.beginReplicaRead a be) := by
  simp only [exec, execLocalReplicaRead, State.portFree_of_idlePort hport, inReplica_iff.2 ha, if_true]

theorem exec_localWritePrivate {s : State} (hport : s.idlePort) {a : BitVec 16} (ha : a.toNat < 0x8000)
    (hpage : s.maps.ofLocalPage (2 * a.toNat / 256) = none) (be : BitVec 2) (data : Word) :
    exec (.localWritePrivate a be data) s =
      .next (if be = 0 then s.beginCycle true a be data .complete
        else ((s.beginCycle true a be data .privateWrite).requestGrant .localPort).waitForGrant) := by
  simp only [exec, execLocalWritePrivate, State.portFree_of_idlePort hport, inReplica_iff.2 ha, accessPage_eq, hpage,
    Option.isNone_none, Bool.and_self, if_true]

/-- Settles O29. -/
theorem replicaReadsAndPrivateWrites : Obligations.ReplicaReadsAndPrivateWrites := by
  refine ⟨fun s a be hport ha => ?_, fun s c hcycle hstage hbe hgranted => ?_, fun s a be data hport ha hpage => ?_,
    fun s c hcycle hstage ha hgranted hwf => ?_⟩
  · rw [exec_localReplicaRead_inside hport ha]
    refine ⟨fun hbe => ?_, fun hbe => ⟨_, rfl, ?_⟩⟩
    · subst hbe; rfl
    · rw [State.beginReplicaRead, if_neg hbe]
      exact State.asks_of_request rfl
  · rw [exec_localReadGrant hcycle hstage hgranted, driveWord_of_ne hbe, State.replicaWord, lowByte_wordOf, highByte_wordOf,
      evenAddr, Nat.mul_comm]
  · rw [exec_localWritePrivate hport ha hpage]
    refine ⟨fun hbe => ?_, fun hbe => ⟨_, rfl, ?_⟩⟩
    · rw [if_pos hbe, State.beginCycle_eq]
    · rw [if_neg hbe]
      exact State.asks_of_request rfl
  · have heffect : s.localWriteEffect c = s.writeReplica c.addr c.bytes := by simp only [State.localWriteEffect, hstage]
    refine ⟨_, exec_localWriteGrant hcycle (.inl hstage) hgranted, ?_, ?_⟩
    · rw [State.endLocalWrite, heffect]
      exact Memory.stored_writeBytes _ hwf c.length_bytes_le
    · rw [State.endLocalWrite, heffect]
      rfl

end Sys2Proof.Machine
end

section
/-!
Writes into windows, the grants of taken writes, and the ends of local cycles (R56 to R65, R178).
-/

namespace Sys2Proof.Machine

/-! ### Merging and room (R60, R62) -/

section Queue
variable {q : PostQueue} {w : WinId} {next : Word} {offset n : Nat}

theorem PostQueue.wouldMerge_concat {front : List PostEntry} {e : PostEntry} (h : q.entries = front ++ [e]) :
    q.wouldMerge w next offset n = e.merges w next offset n := by
  simp only [PostQueue.wouldMerge, h, List.getLast?_concat]

theorem PostQueue.growth_concat {front : List PostEntry} {e : PostEntry} (h : q.entries = front ++ [e]) :
    q.growth offset n =
      max (offset + n) (e.offset.toNat + e.data.length) - min offset e.offset.toNat - e.data.length := by
  simp only [PostQueue.growth, h, List.getLast?_concat, unionLength]

theorem PostQueue.wouldMerge_iff_concat :
    q.wouldMerge w next offset n = true ↔
      ∃ (front : List PostEntry) (e : PostEntry), q.entries = front ++ [e] ∧ e.window = w ∧ e.sealed = false ∧
        e.seq = next - 1 ∧ offset ≤ e.offset.toNat + e.data.length ∧ e.offset.toNat ≤ offset + n ∧
        max (offset + n) (e.offset.toNat + e.data.length) - min offset e.offset.toNat ≤ 64 := by
  have hmerges {e : PostEntry} : e.merges w next offset n = true ↔ e.window = w ∧ e.sealed = false ∧ e.seq = next - 1 ∧
      offset ≤ e.offset.toNat + e.data.length ∧ e.offset.toNat ≤ offset + n ∧
      max (offset + n) (e.offset.toNat + e.data.length) - min offset e.offset.toNat ≤ 64 := by
    rw [PostEntry.merges_iff, and_assoc]
    exact Iff.rfl
  rw [PostQueue.wouldMerge_iff]
  constructor
  · rintro ⟨e, hlast, hm⟩
    obtain ⟨front, hconcat⟩ := List.getLast?_eq_some_iff.1 hlast
    exact ⟨front, e, hconcat, hmerges.1 hm⟩
  · rintro ⟨front, e, hconcat, hm⟩
    exact ⟨e, List.getLast?_eq_some_iff.2 ⟨front, hconcat⟩, hmerges.2 hm⟩

theorem PostQueue.freeBytes_eq : q.freeBytes = 2048 - postBytes q.entries := rfl

theorem PostQueue.fits_of_merge (h : q.wouldMerge w next offset n = true) :
    q.fits w next offset n = true ↔ q.growth offset n ≤ 2048 - postBytes q.entries := by
  rw [PostQueue.fits, if_pos h, decide_eq_true_eq, PostQueue.freeBytes_eq]

theorem PostQueue.fits_of_append (h : q.wouldMerge w next offset n = false) :
    q.fits w next offset n = true ↔ q.entries.length < 32 ∧ n ≤ 2048 - postBytes q.entries := by
  rw [PostQueue.fits, if_neg (by simp [h]), Bool.and_eq_true, decide_eq_true_eq, decide_eq_true_eq, PostQueue.freeBytes_eq]
  exact Iff.rfl

end Queue

/-! ### LOCAL_WRITE_WINDOW (R56, R57, R62, R63) -/

section Window
variable {s : State} {a : BitVec 16} {be : BitVec 2} {data : Word} {w : WinId}

theorem exec_localWriteWindow (hport : s.idlePort) (ha : a.toNat < 0x8000)
    (hpage : s.maps.ofLocalPage (2 * a.toNat / 256) = some w) :
    exec (.localWriteWindow a be data) s =
      .next (if be = 0 then s.beginCycle true a be data .complete
        else if (s.win w).ownership = .owner then
          s.takeWrite w { write := true, a := a, be := be, data := data, stage := .complete }
        else s.refuseWrite w a be data) := by
  simp only [exec, execLocalWriteWindow, State.portFree_of_idlePort hport, inReplica_iff.2 ha, accessPage_eq, hpage,
    Bool.and_self, if_true]

theorem Window.handsOff_iff {x : Window} :
    x.handsOff = true ↔ x.role = some .share ∧ x.ownership = .follower ∧ x.desc.autoClaim = true ∧ x.sync = .synced := by
  simp [Window.handsOff, Window.isShare, and_assoc]

theorem State.refuseWrite_eq (hruns : s.li.line.runs) :
    s.refuseWrite w a be data =
      if (s.win w).handsOff then
        ({ s with lp := s.lp.served true a be data,
                  en := s.eventOf { cause := .localWriteRefused, window := some w, station := some (s.win w).recordedOwner,
                                    address := some (BitVec.ofNat 16 (accessAddr a be)) } } : State).startClaim w
      else
        { s with lp := s.lp.served true a be data,
                 en := s.eventOf { cause := .localWriteRefused, window := some w, station := some (s.win w).recordedOwner,
                                   address := some (BitVec.ofNat 16 (accessAddr a be)) } } := by
  have hrefused : (s.beginCycle true a be data .complete).recordRefusal w (accessAddr a be) =
      { s with lp := s.lp.served true a be data,
               en := s.eventOf { cause := .localWriteRefused, window := some w, station := some (s.win w).recordedOwner,
                                 address := some (BitVec.ofNat 16 (accessAddr a be)) } } :=
    State.recordEvent_of_runs (s := s.beginCycle true a be data .complete) hruns _
  rw [State.refuseWrite, hrefused]

end Window

section Take
variable {s : State} {w : WinId} {c : LocalCycle}

theorem State.takeWrite_of_fits
    (h : s.pq.fits w (s.win w).nextSeq (s.windowOffset w c) c.bytes.length = true) :
    ({ s with pq := { s.pq with
        mergeHold := s.pq.wouldMerge w (s.win w).nextSeq (s.windowOffset w c) c.bytes.length } } : State).asks
      (s.takeWrite w c) { c with stage := .allowedWrite w } := by
  rw [State.takeWrite, if_pos (show s.writeFits w c = true from h)]
  exact State.asks_of_request rfl

theorem State.takeWrite_of_held
    (h : s.pq.fits w (s.win w).nextSeq (s.windowOffset w c) c.bytes.length = false) (hlimit : s.lp.params.waitLimit ≠ 0) :
    s.takeWrite w c = { s with lp := { s.lp with cycle := some { c with stage := .heldWrite w 0 }, wait := true } } := by
  rw [State.takeWrite, if_neg (by rw [State.writeFits, h]; simp), if_neg hlimit]
  rfl

theorem State.takeWrite_of_overflow
    (h : s.pq.fits w (s.win w).nextSeq (s.windowOffset w c) c.bytes.length = false) (hlimit : s.lp.params.waitLimit = 0) :
    s.asks (s.takeWrite w c) { c with stage := .overflowWrite w } := by
  rw [State.takeWrite, if_neg (by rw [State.writeFits, h]; simp), if_pos hlimit]
  exact State.asks_of_request rfl

end Take

/-- Settles O30. -/
theorem windowWritesAreJudged : Obligations.WindowWritesAreJudged := by
  refine ⟨fun s a be data w hport ha hpage => ?_, fun s a be data w hport ha hpage hbe howner => ?_, fun q w next offset n => ?_⟩
  · rw [exec_localWriteWindow hport ha hpage]
    refine ⟨fun hbe => by rw [if_pos hbe, State.beginCycle_eq], fun hbe howner hruns => ?_⟩
    rw [if_neg hbe, if_neg howner, State.refuseWrite_eq hruns]
    intro t
    split
    · next hclaims => rw [if_pos (Window.handsOff_iff.2 hclaims), State.startClaim_eq]; rfl
    · next hclaims => rw [if_neg fun h => hclaims (Window.handsOff_iff.1 h)]
  · rw [exec_localWriteWindow hport ha hpage, if_neg hbe, if_pos howner]
    exact ⟨fun hfits => ⟨_, rfl, State.takeWrite_of_fits hfits⟩,
      fun hfull hlimit => congrArg _ (State.takeWrite_of_held hfull hlimit),
      fun hfull hlimit => ⟨_, rfl, State.takeWrite_of_overflow hfull hlimit⟩⟩
  · refine ⟨PostQueue.wouldMerge_iff_concat, fun hmerge front e hconcat => ?_, PostQueue.fits_of_append⟩
    rw [PostQueue.fits_of_merge hmerge, PostQueue.growth_concat hconcat]

/-! ### Grants of taken writes (R60, R61, R63) -/

theorem PostEntry.merge_spec {e : PostEntry} {offset : Nat} {bytes : List Byte} (hoffset : offset < 65536)
    (hbefore : offset ≤ e.offset.toNat + e.data.length) (hafter : e.offset.toNat ≤ offset + bytes.length) :
    let e' := e.merge offset bytes
    e'.offset.toNat = min offset e.offset.toNat ∧
    e'.offset.toNat + e'.data.length = max (offset + bytes.length) (e.offset.toNat + e.data.length) ∧
    ∀ i : Nat, e'.offset.toNat ≤ i → i < e'.offset.toNat + e'.data.length →
      e'.data.getD (i - e'.offset.toNat) 0 =
        if offset ≤ i ∧ i < offset + bytes.length then bytes.getD (i - offset) 0 else e.data.getD (i - e.offset.toNat) 0 := by
  intro e'
  have hstart : e'.offset.toNat = min offset e.offset.toNat := by
    have hmin : min offset e.offset.toNat < 2 ^ 16 := (min_le_left _ _).trans_lt hoffset
    simp only [e', PostEntry.merge, BitVec.toNat_ofNat, Nat.mod_eq_of_lt hmin]
  have hlength : e'.data.length = unionLength offset bytes.length e.offset.toNat e.data.length := by
    simp [e', PostEntry.merge]
  refine ⟨hstart, ?_, fun i hlow hhigh => ?_⟩
  · rw [hstart, hlength, unionLength]
    omega
  · rw [hstart] at hlow hhigh ⊢
    have hi : i - min offset e.offset.toNat < unionLength offset bytes.length e.offset.toNat e.data.length := by
      rw [← hlength]; omega
    have hat : min offset e.offset.toNat + (i - min offset e.offset.toNat) = i := by omega
    simp only [e', PostEntry.merge, List.getD_eq_getElem?_getD, List.getElem?_map, List.getElem?_range hi, Option.map_some,
      hat, Option.getD_some]

theorem PostQueue.mergeTail_concat {q : PostQueue} {front : List PostEntry} {e : PostEntry} (h : q.entries = front ++ [e])
    (offset : Nat) (bytes : List Byte) : q.mergeTail offset bytes = { q with entries := front ++ [e.merge offset bytes] } := by
  simp only [PostQueue.mergeTail, h, List.getLast?_concat, List.dropLast_concat]

/-- What a local write's grant leaves when the write's own effect is `u`. -/
theorem State.endLocalWrite_eq {s u : State} {c : LocalCycle} (h : s.localWriteEffect c = u) :
    s.endLocalWrite c = { u with lp := { u.lp with cycle := some { c with stage := .complete }, wait := false },
                                 rm := { u.rm with arb := u.rm.arb.release } } := by
  rw [State.endLocalWrite, h]
  rfl

/-- Settles O31. -/
theorem takenWritesAreMade : Obligations.TakenWritesAreMade := by
  refine ⟨fun s c w hcycle hstage ha hgranted hwf => ?_, fun s c w n hcycle hstage => exec_postWaitExpiry hcycle hstage,
    fun s c w hruns hcycle hstage ha hgranted hwf => ?_⟩
  · intro offset
    have heffect : s.localWriteEffect c =
        ((s.writeReplica c.addr c.bytes).placeWrite w offset c.bytes).setMergeHold false := by
      simp only [State.localWriteEffect, hstage]; rfl
    refine ⟨_, exec_localWriteGrant hcycle (.inr ⟨w, hstage⟩) hgranted, ?_⟩
    have hstored := Memory.stored_writeBytes c.addr hwf c.length_bytes_le
    cases hmerge : s.pq.wouldMerge w (s.win w).nextSeq offset c.bytes.length with
    | false =>
      rw [State.endLocalWrite_eq heffect, State.placeWrite_of_append (s := s.writeReplica c.addr c.bytes) (by exact Bool.eq_false_iff.1 hmerge)]
      exact ⟨hstored, rfl, fun _ => ⟨rfl, rfl⟩, fun h => (nomatch h), rfl⟩
    | true =>
      obtain ⟨front, e, hconcat, hwindow, hsealed, -, hbefore, hafter, hunion⟩ := PostQueue.wouldMerge_iff_concat.1 hmerge
      rw [State.endLocalWrite_eq heffect, State.placeWrite_of_merge (s := s.writeReplica c.addr c.bytes) hmerge,
        PostQueue.mergeTail_concat (q := (s.writeReplica c.addr c.bytes).pq) hconcat]
      refine ⟨hstored, rfl, fun h => (nomatch h), fun _ => ⟨rfl, front, e, e.merge offset c.bytes, hconcat, rfl, hwindow, rfl,
        hsealed, ?_, fun hoffset => PostEntry.merge_spec hoffset hbefore hafter⟩, rfl⟩
      simpa [PostEntry.merge, unionLength] using hunion
  · have heffect : s.localWriteEffect c =
        ((s.writeReplica c.addr c.bytes).modWin w fun x => { x with nextSeq := x.nextSeq + 1, markNow := true }).recordEvent
          { cause := .postOverflow, window := some w, address := some (BitVec.ofNat 16 c.addr),
            sequence := some (s.win w).nextSeq } := by
      simp only [State.localWriteEffect, hstage]
    rw [State.recordEvent_of_runs (by exact hruns)] at heffect
    refine ⟨_, exec_overflowWriteGrant hcycle hstage hgranted, ?_⟩
    rw [State.endLocalWrite_eq heffect]
    exact ⟨Memory.stored_writeBytes c.addr hwf c.length_bytes_le, rfl⟩

/-! ### The ends of local cycles (R178) -/

section End
variable {s : State} {c : LocalCycle}

theorem State.endAccess_of_complete (h : c.stage = .complete) : s.endAccess c = s := by simp only [State.endAccess, h]

theorem State.endAccess_of_held {w : WinId} {n : Nat} (h : c.stage = .heldWrite w n) : s.endAccess c = s := by
  simp only [State.endAccess, h]

theorem State.endAccess_of_read_granted (h : c.stage = .read) (hgranted : s.rm.arb.granted = some .localPort) :
    s.endAccess c = { s with rm := { s.rm with arb := s.rm.arb.release } } := by
  simp only [State.endAccess, h, State.granted, hgranted, decide_true, if_true]
  rfl

theorem State.endAccess_of_read_waiting (h : c.stage = .read) (hgranted : s.rm.arb.granted ≠ some .localPort) :
    s.endAccess c = s.withdrawRequest .localPort := by
  simp only [State.endAccess, h, State.granted, decide_eq_true_eq, if_neg hgranted]

/-- The stages of a write that has asked the arbiter. -/
abbrev Stage.asksWrite (st : Stage) : Prop :=
  st = .privateWrite ∨ (∃ w : WinId, st = .allowedWrite w) ∨ ∃ w : WinId, st = .overflowWrite w

theorem State.endAccess_of_write_granted (h : c.stage.asksWrite) (hgranted : s.rm.arb.granted = some .localPort) :
    s.endAccess c = s.endLocalWrite c := by
  rcases h with h | ⟨w, h⟩ | ⟨w, h⟩ <;> simp only [State.endAccess, h, State.granted, hgranted, decide_true, if_true]

theorem State.endAccess_of_write_waiting (h : c.stage.asksWrite) (hgranted : s.rm.arb.granted ≠ some .localPort) :
    s.endAccess c = (s.withdrawRequest .localPort).setMergeHold false := by
  rcases h with h | ⟨w, h⟩ | ⟨w, h⟩ <;>
    simp only [State.endAccess, h, State.granted, decide_eq_true_eq, if_neg hgranted]

theorem State.withdrawRequest_waiting (r : Requester) : ∀ q ∈ (s.withdrawRequest r).rm.arb.waiting, q.who ≠ r := by
  intro q hq
  simpa using (List.mem_filter.1 hq).2

end End

/-- Either row that ends a cycle ends its access. -/
theorem exec_cycleEnds {s : State} {c : LocalCycle} {i : Instr} (hcycle : s.lp.cycle = some c)
    (hi : (i = .localCycleAbandon ∧ s.lp.wait = true) ∨ (i = .localCycleEnd ∧ s.lp.wait = false)) :
    exec i s = .next ((s.endAccess c).modLp LocalPort.idle) := by
  rcases hi with ⟨rfl, hwait⟩ | ⟨rfl, hwait⟩
  · exact exec_localCycleAbandon hcycle hwait
  · exact exec_localCycleEnd hcycle hwait

/-- Settles O32. -/
theorem localCyclesEnd : Obligations.LocalCyclesEnd := by
  refine ⟨fun s c i hcycle hgranted hi => ?_, fun s c hcycle hstage hwait => ?_, fun s c hcycle hstage hwait hgranted => ?_⟩
  · intro idle
    rw [exec_cycleEnds hcycle hi]
    refine ⟨fun hread => ?_, fun hplaced => ?_, fun ⟨w, hoverflow⟩ => ?_⟩
    · rw [State.endAccess_of_read_granted hread hgranted]
      rfl
    · rw [State.endAccess_of_write_granted (hplaced.imp_right .inl) hgranted]
      exact ⟨_, exec_localWriteGrant hcycle hplaced hgranted, rfl⟩
    · rw [State.endAccess_of_write_granted (.inr (.inr ⟨w, hoverflow⟩)) hgranted]
      exact ⟨_, exec_overflowWriteGrant hcycle hoverflow hgranted, rfl⟩
  · rw [exec_localCycleEnd hcycle hwait, State.endAccess_of_complete hstage]
    rfl
  · rw [exec_localCycleAbandon hcycle hwait]
    refine ⟨_, rfl, ?_⟩
    have hwrite (hasks : c.stage.asksWrite) : s.endAccess c = _ := State.endAccess_of_write_waiting hasks hgranted
    cases hst : c.stage with
    | complete => exact absurd hst hstage
    | read =>
      rw [State.endAccess_of_read_waiting hst hgranted]
      exact ⟨rfl, fun _ _ h => (nomatch h), fun _ => rfl, fun _ => State.withdrawRequest_waiting .localPort, fun ⟨_, h⟩ => (nomatch h)⟩
    | heldWrite w n =>
      rw [State.endAccess_of_held hst]
      exact ⟨rfl, fun _ _ _ => ⟨rfl, rfl⟩, fun h => (nomatch h), fun h => absurd rfl (h w n), fun ⟨_, h⟩ => (nomatch h)⟩
    | privateWrite =>
      rw [hwrite (.inl hst)]
      exact ⟨rfl, fun _ _ h => (nomatch h), fun h => (nomatch h), fun _ => State.withdrawRequest_waiting .localPort, fun _ => rfl⟩
    | allowedWrite w =>
      rw [hwrite (.inr (.inl ⟨w, hst⟩))]
      exact ⟨rfl, fun _ _ h => (nomatch h), fun h => (nomatch h), fun _ => State.withdrawRequest_waiting .localPort, fun _ => rfl⟩
    | overflowWrite w =>
      rw [hwrite (.inr (.inr ⟨w, hst⟩))]
      exact ⟨rfl, fun _ _ h => (nomatch h), fun h => (nomatch h), fun _ => State.withdrawRequest_waiting .localPort, fun _ => rfl⟩

end Sys2Proof.Machine
end

section
/-!
Attempts and completions: the page of a SWEEP_DATA, lost frames and transmit faults, the GRANTs that become due, and what
a completed frame does at its source (R14 to R17, R37, R62, R67, R72, R89, R105 to R110, R142, R143).
-/

namespace Sys2Proof.Machine

/-! ### GRANTs that become due (R142) -/

theorem State.grantBecomesDue_eq (s : State) (w : WinId) :
    s.grantBecomesDue w = (decide ((s.win w).ownership = .granting) && s.pq.entries.all (fun e => decide (e.window ≠ w)) &&
      s.se.current.all (fun c => decide (c.window ≠ w) || !c.abandon) && decide (OwnerFrame.grant w ∉ s.ownerDue)) := by
  have hqueue : (!s.pq.holds w) = s.pq.entries.all fun e => decide (e.window ≠ w) := by
    simp [PostQueue.holds, List.not_any_eq_all_not]
  have hend : (!s.se.endOwed w) = s.se.current.all fun c => decide (c.window ≠ w) || !c.abandon := by
    cases hcurrent : s.se.current with
    | none => simp [SweepEngine.endOwed, SweepEngine.currentOf, hcurrent]
    | some c =>
      by_cases hw : c.window = w <;> simp [SweepEngine.endOwed, SweepEngine.currentOf, hcurrent, hw, Option.filter]
  rw [State.grantBecomesDue, hqueue, hend]
  simp

theorem State.foldl_grants (l : List WinId) (hl : l.Nodup) (s : State) :
    l.foldl (fun t w => if t.grantBecomesDue w then t.makeDue (.grant w) else t) s =
      { s with ownerDue := s.ownerDue ++ (l.filter s.grantBecomesDue).map .grant } := by
  induction l generalizing s with
  | nil => simp
  | cons a l ih =>
    obtain ⟨ha, hl⟩ := List.nodup_cons.1 hl
    rw [List.foldl_cons, ih hl]
    cases hdue : s.grantBecomesDue a with
    | false => simp [hdue]
    | true =>
      have hrest : l.filter (s.makeDue (.grant a)).grantBecomesDue = l.filter s.grantBecomesDue := by
        refine List.filter_congr fun w hw => ?_
        have hlisted : OwnerFrame.grant w ∈ s.ownerDue ++ [.grant a] ↔ OwnerFrame.grant w ∈ s.ownerDue := by
          have hne : w ≠ a := fun h => ha (h ▸ hw)
          simp [hne]
        rw [State.grantBecomesDue, State.makeDue_ownerDue, decide_eq_decide.2 hlisted]
        rfl
      rw [if_pos rfl, hrest, List.filter_cons_of_pos hdue, List.map_cons, List.append_cons]
      rfl

theorem State.settleGrants_eq (s : State) :
    s.settleGrants = { s with ownerDue := s.ownerDue ++ (allWindows.filter s.grantBecomesDue).map .grant } :=
  State.foldl_grants allWindows (by decide) s

theorem State.settleGrants_ownerDue_congr {s t : State} (hwin : t.windows = s.windows) (hpq : t.pq = s.pq) (hse : t.se = s.se)
    (hdue : t.ownerDue = s.ownerDue) : t.settleGrants.ownerDue = s.settleGrants.ownerDue := by
  have hsame : t.grantBecomesDue = s.grantBecomesDue := by
    funext w
    rw [State.grantBecomesDue, State.grantBecomesDue, State.win_eq_of_windows hwin, hpq, hse, hdue]
  simp only [State.settleGrants_eq, hsame, hdue]

theorem State.mem_settleGrants_of_mem {s : State} {x : OwnerFrame} (h : x ∈ s.ownerDue) : x ∈ s.settleGrants.ownerDue := by
  rw [State.settleGrants_eq]
  exact List.mem_append_left _ h

theorem State.mem_settleGrants_iff {s : State} {x : OwnerFrame} :
    x ∈ s.settleGrants.ownerDue ↔ x ∈ s.ownerDue ∨ ∃ w : WinId, s.grantBecomesDue w = true ∧ x = .grant w := by
  rw [State.settleGrants_eq, List.mem_append, List.mem_map]
  simp only [List.mem_filter, mem_allWindows, true_and, eq_comm (a := x)]

/-- After the settling a GRANT is listed for each GRANTING window with neither a post nor an END to wait for. -/
theorem State.grant_mem_settleGrants {s : State} {w : WinId} (howner : (s.win w).ownership = .granting)
    (hposts : ∀ e ∈ s.pq.entries, e.window ≠ w) (hend : ∀ c ∈ s.se.current, c.window = w → c.abandon = false) :
    OwnerFrame.grant w ∈ s.settleGrants.ownerDue := by
  rw [State.mem_settleGrants_iff]
  by_cases hlisted : OwnerFrame.grant w ∈ s.ownerDue
  · exact .inl hlisted
  · refine .inr ⟨w, ?_, rfl⟩
    have hall : (s.pq.entries.all fun e => decide (e.window ≠ w)) = true := by simpa using hposts
    have hcurrent : (s.se.current.all fun c => decide (c.window ≠ w) || !c.abandon) = true := by
      cases hc : s.se.current with
      | none => rfl
      | some c =>
        by_cases hw : c.window = w
        · simp [hw, hend c hc hw]
        · simp [hw]
    rw [State.grantBecomesDue_eq, hall, hcurrent, howner]
    simp [hlisted]

/-! ### The sweep engine's queue (R104) -/

theorem SweepEngine.promote_eq (e : SweepEngine) (q : List (WinId × Origin)) :
    ({ e with queue := q } : SweepEngine).promote = e.withQueue q := by
  obtain ⟨queue, current, idCounter⟩ := e
  cases current <;> cases q <;> rfl

theorem SweepEngine.currentOf_of_window {e : SweepEngine} {c : Sweep} {w : WinId} (h : e.current = some c) (hw : c.window = w) :
    e.currentOf w = some c := by
  simp [SweepEngine.currentOf, h, hw, Option.filter]

theorem SweepEngine.currentOf_of_other {e : SweepEngine} {w : WinId} (h : ∀ c ∈ e.current, c.window ≠ w) :
    e.currentOf w = none := by
  cases hc : e.current with
  | none => simp [SweepEngine.currentOf, hc]
  | some c => simp [SweepEngine.currentOf, hc, Option.filter, h c hc]

theorem SweepEngine.currentOf_eq_some {e : SweepEngine} {c : Sweep} {w : WinId} (h : e.currentOf w = some c) :
    e.current = some c ∧ c.window = w := by
  simpa [SweepEngine.currentOf, Option.filter_eq_some_iff] using h

theorem State.clearSweep_eq (s : State) (c : Sweep) :
    s.clearSweep c = { s with
      se := ({ s.se with current := none } : SweepEngine).withQueue
        (if c.again = true ∧ (s.win c.window).ownership = .owner then s.se.queue ++ [(c.window, Origin.requested)]
          else s.se.queue) } := by
  rw [← SweepEngine.promote_eq]
  by_cases hagain : c.again = true ∧ (s.win c.window).ownership = .owner
  · simp [State.clearSweep, State.modSe, hagain]
  · simp [State.clearSweep, State.modSe, hagain]

/-! ### The end of a frame on the line -/

/-- The page read dropped: the arbiter alone can change (R37). -/
theorem State.dropPageRead_eq (s : State) :
    s.dropPageRead = { s with rm := { s.rm with arb := s.dropPageRead.rm.arb } } := by
  simp only [State.dropPageRead]
  split <;> rfl

theorem State.sweepFrameLost_eq (s : State) (src : Source) :
    s.sweepFrameLost src = { s with se := (s.sweepFrameLost src).se } := by
  cases src with
  | sweepBegin w =>
    simp only [State.sweepFrameLost]
    cases s.se.currentOf w with
    | none => rfl
    | some c => simp only; split <;> rfl
  | grant | deny | takeover | claim | update | mark | refreshReq | sweepData | sweepEnd | message => rfl

theorem State.sweepFrameLost_se_congr {s t : State} (hwin : t.windows = s.windows) (hse : t.se = s.se) (src : Source) :
    (t.sweepFrameLost src).se = (s.sweepFrameLost src).se := by
  cases src with
  | sweepBegin w =>
    simp only [State.sweepFrameLost]
    rw [hse]
    cases hcurrent : s.se.currentOf w with
    | none => simp only [hse]
    | some c =>
      simp only
      split
      · rw [State.clearSweep_eq, State.clearSweep_eq, State.win_eq_of_windows hwin, hse]
      · exact hse
  | grant | deny | takeover | claim | update | mark | refreshReq | sweepData | sweepEnd | message => exact hse

theorem State.losesSweepFrame_of_lost {s t : State} {src : Source} (h : t.se = (s.sweepFrameLost src).se) :
    s.losesSweepFrame t src := by
  refine ⟨fun w c hsrc hcurrent hwindow habandon => ?_, fun hkept => ?_⟩
  · subst hsrc hwindow
    have hcur := SweepEngine.currentOf_of_window hcurrent rfl
    rw [h]
    simp only [State.sweepFrameLost, hcur, habandon, if_true]
    rw [State.clearSweep_eq]
  · rw [h]
    cases src with
    | sweepBegin w =>
      simp only [State.sweepFrameLost]
      cases hcur : s.se.currentOf w with
      | none => rfl
      | some c =>
        obtain ⟨hcurrent, hwindow⟩ := SweepEngine.currentOf_eq_some hcur
        simp only [hkept w c rfl hcurrent hwindow, Bool.false_eq_true, if_false]
    | grant | deny | takeover | claim | update | mark | refreshReq | sweepData | sweepEnd | message => rfl

/-- A line released without a completion: the transmitter is IDLE, and due frames stay due. -/
theorem State.releaseLine_eq (s : State) (f : OnLine) :
    ∃ (arb : Arbiter) (due : List OwnerFrame),
      s.releaseLine f = { s with li := { s.li with tx := .idle }, rm := { s.rm with arb := arb },
                                 se := (s.sweepFrameLost f.source).se, ownerDue := due } ∧
      ∀ x ∈ s.ownerDue, x ∈ due := by
  refine ⟨(s.setTx .idle).dropPageRead.rm.arb, (s.releaseLine f).ownerDue, ?_, fun x hx => ?_⟩
  · have hse := State.sweepFrameLost_se_congr (s := s) (t := (s.setTx .idle).dropPageRead) (by rw [State.dropPageRead_eq]; rfl)
      (by rw [State.dropPageRead_eq]; rfl) f.source
    rw [← hse, State.releaseLine, State.settleGrants_eq, State.sweepFrameLost_eq, State.dropPageRead_eq]
    rfl
  · refine State.mem_settleGrants_of_mem ?_
    rw [State.sweepFrameLost_eq, State.dropPageRead_eq]
    exact hx

theorem exec_arbitrationWon {s : State} {f : OnLine} (h : s.li.tx = .arbitrate f) :
    exec .arbitrationWon s = .next { s with li := { s.li with tx := .send f } } := by
  simp only [exec, execArbitrationWon, h]
  rfl

theorem exec_arbitrationLost {s : State} {f : OnLine} (h : s.li.tx = .arbitrate f) :
    exec .arbitrationLost s =
      .next (((s.releaseLine f).count .arbLosses).modLi fun li =>
        { li with rx := li.rx.inFrame, recessiveRun := 0, dominantRun := max 1 li.dominantRun }) := by
  simp only [exec, execArbitrationLost, h]

/-- The state of a transmit fault before R21 is asked. -/
def State.faulty (s : State) (f : OnLine) : State :=
  ((s.releaseLine f).count .txFaults).modLi fun li =>
    { li with rx := .hunt none, faults := min Config.faultLimit (li.faults + 1) }

theorem exec_transmitFault {s : State} {f : OnLine} (h : s.li.tx.onLine = some f) :
    exec .transmitFault s =
      .next (if (s.faulty f).li.faults = 16 then (s.faulty f).enterFaulted else s.faulty f) := by
  simp only [exec, execTransmitFault, h]
  rfl

/-- Settles O20. -/
theorem attemptsSettle : Obligations.AttemptsSettle := by
  refine ⟨fun s f h => ⟨exec_arbitrationWon h, _, exec_arbitrationLost h, ?_⟩, fun s f h hruns hfaults => ?_⟩
  · obtain ⟨arb, due, hrelease, hdue⟩ := s.releaseLine_eq f
    rw [hrelease]
    refine ⟨rfl, fun bits hrx => ?_, rfl, hdue, State.losesSweepFrame_of_lost rfl, rfl⟩
    simp only [State.modLi_li, State.count, State.modEn_li, hrx]
    rfl
  · obtain ⟨arb, due, hrelease, hdue⟩ := s.releaseLine_eq f
    have hcount : min Config.faultLimit (s.li.faults + 1) = s.li.faults + 1 := min_eq_right (by exact Nat.succ_le_succ hfaults)
    have hfaulty : s.faulty f =
        { s with li := { s.li with tx := .idle, rx := .hunt none, faults := s.li.faults + 1 }, en := s.en.bump .txFaults 1,
                 rm := { s.rm with arb := arb }, se := (s.sweepFrameLost f.source).se, ownerDue := due } := by
      rw [State.faulty, hrelease, ← hcount]
      rfl
    rw [exec_transmitFault h, hfaulty]
    by_cases hlast : s.li.faults = 15
    · have hlimit : s.li.faults + 1 = 16 := by omega
      rw [if_pos hlimit, State.enterFaulted, State.recordEvent_of_runs (by exact ⟨nofun, nofun⟩)]
      refine ⟨_, rfl, fun hless => absurd hlast hless.ne, fun _ => ⟨?_, rfl⟩, hdue, State.losesSweepFrame_of_lost rfl, rfl⟩
      simp only [State.modLi_li, hlimit]
      rfl
    · have hlimit : ¬s.li.faults + 1 = 16 := by omega
      rw [if_neg hlimit]
      exact ⟨_, rfl, fun _ => ⟨rfl, rfl⟩, fun h => absurd h hlast, hdue, State.losesSweepFrame_of_lost rfl, rfl⟩

/-! ### The page of a SWEEP_DATA (R37) -/

theorem exec_sweepPageReadGrant {s : State} (hgranted : s.rm.arb.granted = some .sweepReader) :
    exec .sweepPageReadGrant s = .next ((s.setTx (s.li.tx.mapOnLine s.readPage)).releaseGrant) := by
  have hgrant : s.granted .sweepReader = true := by simp [State.granted, hgranted]
  simp only [exec, execSweepPageReadGrant, hgrant, if_true]

theorem State.readPage_of_pending {s : State} {f : OnLine} {w : WinId} (hsource : f.source = .sweepData w)
    (hpending : f.pagePending = true) : s.readPage f = f.withPage (s.pageOf w f) := by
  simp only [State.readPage, hsource, hpending, if_true]

theorem Memory.length_page (m : Replica) (p : Nat) : (Memory.page m p).length = 256 := by
  simp [Memory.page]

theorem Memory.getElem?_page (m : Replica) (p : Nat) {k : Nat} (hk : k < 256) :
    (Memory.page m p)[k]? = some (Memory.read m ((p * 256 + k) % 65536)) := by
  simp [Memory.page, hk]

/-- Settles O19. -/
theorem sweepPageIsReadAtItsGrant : Obligations.SweepPageIsReadAtItsGrant := by
  intro s f w b i p d hgranted hsource hpending hbody
  refine ⟨s.pageOf w f, Memory.length_page _ _, fun k hk => ?_, ?_⟩
  · rw [State.pageOf, hbody, Memory.getElem?_page _ _ hk]
    rfl
  intro g rm
  have hpage : s.readPage f = g := by
    rw [State.readPage_of_pending hsource hpending, OnLine.withPage, hbody]
    rfl
  rw [exec_sweepPageReadGrant hgranted]
  exact ⟨fun htx => by rw [htx, Transmitter.mapOnLine, hpage]; rfl, fun htx => by rw [htx, Transmitter.mapOnLine, hpage]; rfl⟩

/-! ### FRAME_COMPLETED (R16, R17) -/

/-- The part's own blocks as a completed frame leaves the line, before its source is told. -/
def State.lineCompleted (s : State) : State :=
  (s.modLi fun li =>
    { li with tx := .idle, faults := 0, recoveredOnce := false, yield := true, rx := .hunt none, recessiveRun := 0,
              dominantRun := 1 }).dropPageRead

theorem State.lineCompleted_eq (s : State) :
    ∃ arb : Arbiter, s.lineCompleted = { s with
      li := { s.li with tx := .idle, faults := 0, recoveredOnce := false, yield := true, rx := .hunt none,
                        recessiveRun := 0, dominantRun := 1 },
      rm := { s.rm with arb := arb } } :=
  ⟨s.lineCompleted.rm.arb, State.dropPageRead_eq _⟩

theorem exec_frameCompleted {s : State} {f : OnLine} (h : s.li.tx = .send f) :
    exec .frameCompleted s = .next (s.lineCompleted.tellSource f).settleGrants := by
  simp only [exec, execFrameCompleted, h]
  rfl

/-! ### UPDATE (R62, R67) -/

theorem State.restartMark_eq (s : State) (w : WinId) :
    s.restartMark w = s.modWin w fun x =>
      { x with markTimer := if x.ownership = .owner then s.freshMarkTimer else x.markTimer } := by
  unfold State.restartMark
  split
  · next h => simp [State.modWin, h]
  · next h => exact (State.modWin_self s w _ (by simp [h])).symm

theorem State.retestHeld_of_held {s : State} {c : LocalCycle} {w : WinId} {n : Nat} (hcycle : s.lp.cycle = some c)
    (hstage : c.stage = .heldWrite w n) : s.retestHeld = if s.writeFits w c then s.allowWrite w c else s := by
  simp only [State.retestHeld, hcycle, hstage]

theorem State.retestHeld_of_not_held {s : State}
    (h : ∀ c : LocalCycle, s.lp.cycle = some c → ∀ (w : WinId) (n : Nat), c.stage ≠ .heldWrite w n) : s.retestHeld = s := by
  cases hcycle : s.lp.cycle with
  | none => simp only [State.retestHeld, hcycle]
  | some c =>
    cases hstage : c.stage with
    | heldWrite w n => exact absurd hstage (h c hcycle w n)
    | complete | read | privateWrite | allowedWrite | overflowWrite => simp only [State.retestHeld, hcycle, hstage]

theorem State.retestHeld_frame (s : State) :
    s.retestHeld = { s with lp := s.retestHeld.lp, rm := { s.rm with arb := s.retestHeld.rm.arb },
                            pq := { s.pq with mergeHold := s.retestHeld.pq.mergeHold } } := by
  cases hcycle : s.lp.cycle with
  | none => simp only [State.retestHeld, hcycle]
  | some c =>
    cases hstage : c.stage with
    | heldWrite w n =>
      rw [State.retestHeld_of_held hcycle hstage]
      split <;> rfl
    | complete | read | privateWrite | allowedWrite | overflowWrite => simp only [State.retestHeld, hcycle, hstage]

theorem State.win_restartMark (s : State) (w v : WinId) :
    (s.restartMark w).win v =
      if v = w ∧ (s.win w).ownership = .owner then { s.win w with markTimer := s.freshMarkTimer } else s.win v := by
  rw [State.restartMark_eq, State.win_modWin_eq]
  by_cases hv : v = w
  · subst hv
    by_cases howner : (s.win v).ownership = .owner <;> simp [howner]
  · simp [hv]

theorem State.writeFits_restartMark (s : State) (w v : WinId) (c : LocalCycle) :
    (s.restartMark w).writeFits v c = s.pq.fits v (s.win v).nextSeq (s.windowOffset v c) c.bytes.length := by
  have hkept : ((s.restartMark w).win v).nextSeq = (s.win v).nextSeq ∧ ((s.restartMark w).win v).desc = (s.win v).desc := by
    rw [State.win_restartMark]
    split
    · next h => rw [h.1]; exact ⟨rfl, rfl⟩
    · exact ⟨rfl, rfl⟩
  have hpq : (s.restartMark w).pq = s.pq := by rw [State.restartMark_eq]; rfl
  simp only [State.writeFits, State.windowOffset, hkept.1, hkept.2, hpq]

theorem dropWhile_append_stop {α : Type} {p : α → Bool} {out left : List α} (hout : ∀ x ∈ out, p x = true)
    (hleft : ∀ x ∈ left.head?, p x = false) : (out ++ left).dropWhile p = left := by
  rw [List.dropWhile_append_of_pos hout]
  cases left with
  | nil => rfl
  | cons x rest => exact List.dropWhile_cons_of_neg (by simp [hleft x rfl])

theorem State.updateCompleted_eq {s : State} {w : WinId} {seqs : List Word} {out left : List PostEntry}
    (hentries : s.pq.entries = out ++ left) (hout : ∀ e ∈ out, e.sealed = true ∧ e.window = w ∧ e.seq ∈ seqs)
    (hleft : ∀ e ∈ left.head?, ¬(e.sealed = true ∧ e.window = w ∧ e.seq ∈ seqs)) :
    s.updateCompleted w seqs =
      (({ s with pq := { s.pq with entries := left } } : State).restartMark w).retestHeld := by
  have hdrop : (s.pq.entries.dropWhile fun e => e.sealed && decide (e.window = w) && decide (e.seq ∈ seqs)) = left := by
    rw [hentries]
    refine dropWhile_append_stop (fun e he => ?_) fun e he => ?_
    · simpa [and_assoc] using hout e he
    · have hstop := hleft e he
      rw [← Bool.not_eq_true]
      simpa [and_assoc] using hstop
  simp only [State.updateCompleted, hdrop]

/-- Settles O22. -/
theorem completionOfUpdate : Obligations.CompletionOfUpdate := by
  intro s f w seqs out left htx hsource hentries hout hleft
  obtain ⟨arb, hcompleted⟩ := s.lineCompleted_eq
  have htell : s.lineCompleted.tellSource f =
      (({ s.lineCompleted with pq := { s.pq with entries := left } } : State).restartMark w).retestHeld := by
    have hupdate : s.lineCompleted.tellSource f = s.lineCompleted.updateCompleted w seqs := by
      simp only [State.tellSource, hsource]
    have hpq : s.lineCompleted.pq = s.pq := by rw [hcompleted]
    rw [hupdate, State.updateCompleted_eq (by rw [hpq, hentries]) hout hleft, hpq]
  let v : State := ({ s.lineCompleted with pq := { s.pq with entries := left } } : State)
  have hv : v = { s.lineCompleted with pq := { s.pq with entries := left } } := rfl
  rw [hcompleted] at hv
  have hwin (x : WinId) : v.win x = s.win x := by rw [hv]; rfl
  have hlp : (v.restartMark w).lp = s.lp := by rw [State.restartMark_eq, hv]; rfl
  have hfits (x : WinId) (c : LocalCycle) : (v.restartMark w).writeFits x c =
      ({ s.pq with entries := left } : PostQueue).fits x (s.win x).nextSeq (s.windowOffset x c) c.bytes.length := by
    rw [State.writeFits_restartMark, State.windowOffset, hwin, hv]
    rfl
  refine ⟨_, exec_frameCompleted htx, ?_⟩
  rw [htell, State.settleGrants_eq]
  have hheldWin (x : WinId) : (v.restartMark w).retestHeld.win x = (v.restartMark w).win x := by
    rw [State.retestHeld_frame]; rfl
  refine ⟨?_, ?_, fun x hx => ?_, fun c x n hcycle hstage => ?_, fun hnone => ?_, ?_⟩
  · rw [State.retestHeld_frame, State.restartMark_eq]
    rfl
  · refine (hheldWin w).trans ?_
    rw [State.win_restartMark, hwin]
    by_cases howner : (s.win w).ownership = .owner
    · rw [if_pos ⟨rfl, howner⟩, if_pos howner, hv]; rfl
    · rw [if_neg fun h => howner h.2, if_neg howner]
  · refine (hheldWin x).trans ?_
    rw [State.win_restartMark, if_neg fun h => hx h.1, hwin]
  · have hretest := State.retestHeld_of_held (s := v.restartMark w) (hlp.symm ▸ hcycle) hstage
    rw [hfits] at hretest
    refine ⟨fun hfit => ?_, fun hfull => ?_⟩
    · rw [hfit, if_pos rfl] at hretest
      rw [hretest, ← hlp]
      rfl
    · rw [hfull] at hretest
      rw [hretest]
      exact hlp
  · rw [State.retestHeld_of_not_held (s := v.restartMark w) (by rw [hlp]; exact hnone)]
    exact hlp
  · rw [State.retestHeld_frame, State.restartMark_eq, hcompleted]
    rfl

end Sys2Proof.Machine
end

section
/-!
The completion of a GRANT, of a REFRESH_REQ and of the sweep frames at their sources (R89, R106 to R108, R142, R143).
-/

namespace Sys2Proof.Machine

/-! ### What the settling of GRANTs keeps -/

section Settle
variable (s : State)

@[simp] theorem State.settleGrants_win (w : WinId) : s.settleGrants.win w = s.win w := by rw [State.settleGrants_eq]; rfl

@[simp] theorem State.settleGrants_ctx (i : Fin 2) : s.settleGrants.ctx i = s.ctx i := by rw [State.settleGrants_eq]; rfl

@[simp] theorem State.settleGrants_pq : s.settleGrants.pq = s.pq := by rw [State.settleGrants_eq]

@[simp] theorem State.settleGrants_se : s.settleGrants.se = s.se := by rw [State.settleGrants_eq]

@[simp] theorem State.settleGrants_en : s.settleGrants.en = s.en := by rw [State.settleGrants_eq]

@[simp] theorem State.settleGrants_contexts : s.settleGrants.contexts = s.contexts := by rw [State.settleGrants_eq]

/-- The settling changes the due frames alone. -/
theorem State.settleGrants_frame : s.settleGrants = { s with ownerDue := s.settleGrants.ownerDue } := by
  rw [State.settleGrants_eq]

end Settle

theorem State.grant_listed_after_settling {s : State} {w : WinId} (howner : (s.settleGrants.win w).ownership = .granting)
    (hposts : ∀ e ∈ s.settleGrants.pq.entries, e.window ≠ w)
    (hend : ∀ c ∈ s.settleGrants.se.current, c.window = w → c.abandon = false) :
    OwnerFrame.grant w ∈ s.settleGrants.ownerDue :=
  State.grant_mem_settleGrants (by simpa using howner) (by simpa using hposts) (by simpa using hend)

theorem State.granting_of_grantBecomesDue {s : State} {w : WinId} (h : s.grantBecomesDue w = true) :
    (s.win w).ownership = .granting := by
  simp only [State.grantBecomesDue, Bool.and_eq_true, decide_eq_true_eq] at h
  exact h.1.1.1

/-! ### A frame whose source has nothing to do (R13) -/

theorem State.tellSource_of_grant_gone {s : State} {f : OnLine} {w : WinId} (hsource : f.source = .grant w)
    (hgone : f.withdrawn = true ∨ (s.win w).ownership ≠ .granting) : s.tellSource f = s := by
  simp only [State.tellSource, hsource]
  cases f.frame.body with
  | grant b g q grantee returned =>
    rcases hgone with hwithdrawn | howner
    · simp only [hwithdrawn, if_true]
    · simp only [State.grantCompleted, if_neg howner, ite_self]
  | update | mark | refreshReq | sweepBegin | sweepData | sweepEnd | claim | deny | takeover | message => rfl

/-- With nothing done at its source, a completed frame leaves the line, and GRANTs that have become due are listed. -/
theorem State.settleGrants_lineCompleted (s : State) :
    s.lineCompleted.settleGrants =
      { s with li := s.lineCompleted.li, rm := { s.rm with arb := s.lineCompleted.rm.arb },
               ownerDue := s.settleGrants.ownerDue } := by
  obtain ⟨arb, hcompleted⟩ := s.lineCompleted_eq
  have hdue := State.settleGrants_ownerDue_congr (s := s) (t := s.lineCompleted) (by rw [hcompleted]) (by rw [hcompleted])
    (by rw [hcompleted]) (by rw [hcompleted])
  rw [State.settleGrants_frame s.lineCompleted, hdue, hcompleted]

/-! ### GRANT (R143) -/

/-- The window handed over to a grantee, its GRANT no longer due. -/
def State.handOver (s : State) (w : WinId) (g : Byte) (grantee : Station) : State :=
  (s.withdrawDue fun f => decide (f = .grant w)).modWin w fun x =>
    { x with ownership := .follower, recordedOwner := grantee, generation := g, grantee := none, returned := false,
             markNow := false }

/-- The window of a completed GRANT goes on as a follower: from GAP if it had been returned, else SYNCED. -/
def State.followGrantee (s : State) (w : WinId) (q : Word) (returned : Bool) : State :=
  if returned then s.enterGap w else s.enterSynced w q

theorem State.grantCompleted_of_granting {s : State} {w : WinId} (h : (s.win w).ownership = .granting) (g : Byte) (q : Word)
    (grantee : Station) (returned : Bool) :
    s.grantCompleted w g q grantee returned = ((s.handOver w g grantee).followGrantee w q returned).recordEvent
      { cause := .ownershipGiven, window := some w, station := some grantee, sequence := some q } := by
  rw [State.grantCompleted, if_pos h]
  rfl

theorem State.enterGap_of_not_reserved {s : State} {w : WinId} (h : s.reservedCtx w = none) :
    s.enterGap w = s.modWin w fun x =>
      { x with sync := .gap, gapOrigin := some .here, contextWait := false, wait := s.drawnTimer } := by
  have hreserved : (s.modWin w fun x => { x with sync := .gap, gapOrigin := some .here }).reservedCtx w = none := h
  rw [State.enterGap, State.beginDelay_eq hreserved]
  simp [State.modWin, State.win]
  rfl

theorem State.handOver_win (s : State) (w v : WinId) (g : Byte) (grantee : Station) :
    (s.handOver w g grantee).win v = if v = w then
      { s.win w with ownership := .follower, recordedOwner := grantee, generation := g, grantee := none, returned := false,
                     markNow := false }
    else s.win v :=
  State.win_modWin_eq _ v w _

theorem State.handOver_eq (s : State) (w : WinId) (g : Byte) (grantee : Station) :
    s.handOver w g grantee = { s with windows := (s.handOver w g grantee).windows,
                                      ownerDue := s.ownerDue.filter fun f => !decide (f = .grant w) } := rfl

theorem State.followGrantee_returned_win (s : State) (w : WinId) (q : Word) :
    (s.followGrantee w q true).win w =
      { s.win w with sync := .gap, gapOrigin := some .here, contextWait := false, wait := s.newDelay } :=
  State.enterGap_win s w

theorem State.followGrantee_synced_win (s : State) (w v : WinId) (q : Word) :
    (s.followGrantee w q false).win v = if v = w then
      { s.win w with sync := .synced, expected := some q, gapOrigin := none, behind := 0 } else s.win v := by
  rw [State.followGrantee, if_neg (by simp), State.enterSynced, State.win_modWin_eq]

theorem State.followGrantee_kept {s : State} {w : WinId} {q : Word} {returned : Bool}
    (h : returned = false ∨ s.reservedCtx w = none) :
    (s.followGrantee w q returned).contexts = s.contexts ∧
      ∀ v : WinId, v ≠ w → (s.followGrantee w q returned).win v = s.win v := by
  cases returned with
  | false => exact ⟨rfl, fun v hv => by rw [State.followGrantee_synced_win, if_neg hv]⟩
  | true =>
    have hreserved : s.reservedCtx w = none := h.resolve_left nofun
    rw [State.followGrantee, if_pos rfl, State.enterGap_of_not_reserved hreserved]
    exact ⟨rfl, fun v hv => State.win_modWin_of_ne _ _ hv⟩

theorem State.followGrantee_frame (s : State) (w : WinId) (q : Word) (returned : Bool) :
    ∃ (tx : Transmitter) (cs : Vector RefreshContext 2) (ws : Vector Window 16),
      s.followGrantee w q returned = { s with li := { s.li with tx := tx }, contexts := cs, windows := ws } := by
  cases returned with
  | true => exact s.enterGap_frame w
  | false => exact ⟨s.li.tx, s.contexts, (s.enterSynced w q).windows, rfl⟩

/-- R143, from the state `u` that a completed GRANT finds: the line is free again, all else is as in `s`. -/
theorem State.grantCompleted_spec {s u : State} {w : WinId} {g : Byte} {q : Word} {grantee : Station} {returned : Bool}
    (hu : u = { s with li := u.li, rm := { s.rm with arb := u.rm.arb } }) (hseen : u.newDelay = s.newDelay)
    (hevent : ∀ f : EventFields, u.eventOf f = s.eventOf f) (hruns : u.li.line.runs)
    (howner : (s.win w).ownership = .granting) :
    let t := (u.grantCompleted w g q grantee returned).settleGrants
    (t.win w).ownership = .follower ∧ (t.win w).recordedOwner = grantee ∧ (t.win w).generation = g ∧
    (t.win w).grantee = none ∧ (t.win w).returned = false ∧ (t.win w).markNow = false ∧
    (returned = false → t.win w = { s.win w with
      ownership := .follower, recordedOwner := grantee, generation := g, grantee := none, returned := false,
      markNow := false, sync := .synced, expected := some q, gapOrigin := none, behind := 0 }) ∧
    (returned = true → (t.win w).sync = .gap ∧ (t.win w).gapOrigin = some .here ∧
      (t.win w).expected = (s.win w).expected ∧
      (t.win w).wait = s.newDelay) ∧
    (returned = false ∨ s.reservedCtx w = none → t.contexts = s.contexts ∧ ∀ v : WinId, v ≠ w → t.win v = s.win v) ∧
    t.en = s.eventOf { cause := .ownershipGiven, window := some w, station := some grantee, sequence := some q } ∧
    OwnerFrame.grant w ∉ t.ownerDue ∧
    t = { s with li := t.li, rm := { s.rm with arb := t.rm.arb }, ownerDue := t.ownerDue, windows := t.windows,
                 contexts := t.contexts, en := t.en } := by
  have hwin (v : WinId) : u.win v = s.win v := by rw [hu]; rfl
  have hctx : u.reservedCtx w = s.reservedCtx w := by rw [hu]; rfl
  obtain ⟨tx, cs, ws, hframe⟩ := (u.handOver w g grantee).followGrantee_frame w q returned
  have hgiven : u.grantCompleted w g q grantee returned =
      { (u.handOver w g grantee).followGrantee w q returned with
        en := u.eventOf { cause := .ownershipGiven, window := some w, station := some grantee, sequence := some q } } := by
    rw [State.grantCompleted_of_granting (by rw [hwin]; exact howner), State.recordEvent_of_runs (by rw [hframe]; exact hruns),
      State.eventOf, hframe]
    rfl
  have hafter (v : WinId) : (u.grantCompleted w g q grantee returned).settleGrants.win v =
      ((u.handOver w g grantee).followGrantee w q returned).win v := by
    rw [State.settleGrants_win, hgiven]; rfl
  have hhanded : (u.handOver w g grantee).win w = { s.win w with
      ownership := .follower, recordedOwner := grantee, generation := g, grantee := none, returned := false,
      markNow := false } := by
    rw [State.handOver_win, if_pos rfl, hwin]
  intro t
  have hsynced (h : returned = false) : t.win w = { s.win w with
      ownership := .follower, recordedOwner := grantee, generation := g, grantee := none, returned := false,
      markNow := false, sync := .synced, expected := some q, gapOrigin := none, behind := 0 } := by
    rw [hafter, h, State.followGrantee_synced_win, if_pos rfl, hhanded]
  have hgap (h : returned = true) : t.win w = { s.win w with
      ownership := .follower, recordedOwner := grantee, generation := g, grantee := none, returned := false,
      markNow := false, sync := .gap, gapOrigin := some .here, contextWait := false, wait := s.newDelay } := by
    rw [hafter, h, State.followGrantee_returned_win, hhanded, ← hseen]
    rfl
  have hfields : (t.win w).ownership = .follower ∧ (t.win w).recordedOwner = grantee ∧ (t.win w).generation = g ∧
      (t.win w).grantee = none ∧ (t.win w).returned = false ∧ (t.win w).markNow = false := by
    cases hreturned : returned with
    | false => rw [hsynced hreturned]; exact ⟨rfl, rfl, rfl, rfl, rfl, rfl⟩
    | true => rw [hgap hreturned]; exact ⟨rfl, rfl, rfl, rfl, rfl, rfl⟩
  obtain ⟨hfollower, hothers⟩ := hfields
  refine ⟨hfollower, hothers.1, hothers.2.1, hothers.2.2.1, hothers.2.2.2.1, hothers.2.2.2.2, hsynced, fun h => ?_,
    fun h => ?_, ?_, ?_, ?_⟩
  · rw [hgap h]; exact ⟨rfl, rfl, rfl, rfl⟩
  · obtain ⟨hcontexts, hwindows⟩ := State.followGrantee_kept (s := u.handOver w g grantee) (w := w) (q := q)
      (h.imp_right fun hreserved => hctx.trans hreserved)
    refine ⟨?_, fun v hv => ?_⟩
    · rw [State.settleGrants_contexts, hgiven]
      refine hcontexts.trans ?_
      rw [State.handOver_eq, hu]
    · rw [hafter, hwindows v hv, State.handOver_win, if_neg hv, hwin]
  · rw [State.settleGrants_en, hgiven, hevent]
  · rw [State.mem_settleGrants_iff]
    rintro (hdue | ⟨v, hbecomes, hv⟩)
    · rw [hgiven, hframe, State.handOver_eq] at hdue
      simpa using (List.mem_filter.1 hdue).2
    · cases hv
      have howned := State.granting_of_grantBecomesDue hbecomes
      rw [← State.settleGrants_win, hfollower] at howned
      cases howned
  · obtain ⟨li, arb, hu'⟩ : ∃ (li : LineInterface) (arb : Arbiter),
        u = { s with li := li, rm := { s.rm with arb := arb } } := ⟨_, _, hu⟩
    have ht : t = { (u.grantCompleted w g q grantee returned) with ownerDue := t.ownerDue } := State.settleGrants_frame _
    clear_value t
    rw [hgiven, hframe, State.handOver_eq] at ht
    rw [ht, hu']

/-- Settles O23. -/
theorem grantsBecomeDueAndHandOver : Obligations.GrantsBecomeDueAndHandOver := by
  refine ⟨fun s => ?_, fun s t i f w hi hexec howner hposts hend => ?_, fun s f w htx hsource hgone => ?_,
    fun s f w b g q grantee returned htx hsource hbody hwithdrawn howner hruns => ?_⟩
  · rw [State.settleGrants_eq]
    simp only [← State.grantBecomesDue_eq]
  · have hreleased (f : OnLine) : ((s.releaseLine f).win w).ownership = .granting →
        (∀ e ∈ (s.releaseLine f).pq.entries, e.window ≠ w) →
        (∀ c ∈ (s.releaseLine f).se.current, c.window = w → c.abandon = false) →
        OwnerFrame.grant w ∈ (s.releaseLine f).ownerDue := by
      rw [State.releaseLine]
      exact State.grant_listed_after_settling
    rcases hi with ⟨rfl, htx⟩ | ⟨rfl, htx⟩ | ⟨rfl, htx⟩
    · rw [exec_frameCompleted htx] at hexec
      generalize s.lineCompleted.tellSource f = r at hexec
      obtain rfl := Host.Outcome.next.inj hexec
      exact State.grant_listed_after_settling howner hposts hend
    · rw [exec_arbitrationLost htx] at hexec
      have hlisted := hreleased f
      generalize s.releaseLine f = r at hexec hlisted
      obtain rfl := Host.Outcome.next.inj hexec
      exact hlisted howner hposts hend
    · rw [exec_transmitFault htx, State.faulty] at hexec
      have hlisted := hreleased f
      generalize s.releaseLine f = r at hexec hlisted
      split at hexec
      · obtain rfl := Host.Outcome.next.inj hexec
        exact hlisted howner hposts hend
      · obtain rfl := Host.Outcome.next.inj hexec
        exact hlisted howner hposts hend
  · refine ⟨_, exec_frameCompleted htx, ?_⟩
    obtain ⟨arb, hcompleted⟩ := s.lineCompleted_eq
    have hwin : s.lineCompleted.win w = s.win w := by rw [hcompleted]; rfl
    rw [State.tellSource_of_grant_gone hsource (hwin.symm ▸ hgone), State.settleGrants_lineCompleted]
  · obtain ⟨arb, hcompleted⟩ := s.lineCompleted_eq
    have htell : s.lineCompleted.tellSource f = s.lineCompleted.grantCompleted w g q grantee returned := by
      simp only [State.tellSource, hsource, hbody, hwithdrawn, Bool.false_eq_true, if_false]
    refine ⟨_, exec_frameCompleted htx, ?_⟩
    rw [htell]
    exact State.grantCompleted_spec (by rw [hcompleted]) (by rw [hcompleted]; rfl) (fun x => by rw [hcompleted]; rfl)
      (by rw [hcompleted]; exact hruns) howner

/-! ### REFRESH_REQ and the sweep frames (R89, R106 to R108) -/

theorem State.tellSource_of_refreshReq {s : State} {f : OnLine} {w : WinId} (hsource : f.source = .refreshReq w) :
    s.tellSource f = if f.withdrawn then s else s.refreshReqCompleted w := by
  simp only [State.tellSource, hsource]

theorem State.refreshReqCompleted_of_reserved {s : State} {w : WinId} {i : Fin 2} (h : s.reservedCtx w = some i) :
    s.refreshReqCompleted w = s.bindContext i w .here := by
  simp only [State.refreshReqCompleted, h]

theorem State.bindContext_eq (s : State) (i : Fin 2) (w : WinId) (origin : GapOrigin) :
    s.bindContext i w origin =
      { s with contexts := s.contexts.set i (.bound (Binding.fresh w (s.win w).pages)),
               windows := s.windows.set w { s.win w with sync := .refreshing, gapOrigin := some origin, contextWait := false,
                                                         wait := s.refreshTimer } } := rfl

theorem State.bindContext_ctx (s : State) (i j : Fin 2) (w : WinId) (origin : GapOrigin) :
    (s.bindContext i w origin).ctx j = if j = i then .bound (Binding.fresh w (s.win w).pages) else s.ctx j :=
  State.ctx_setCtx_eq s i j _

theorem State.bindContext_win (s : State) (i : Fin 2) (w v : WinId) (origin : GapOrigin) :
    (s.bindContext i w origin).win v = if v = w then
      { s.win w with sync := .refreshing, gapOrigin := some origin, contextWait := false, wait := s.refreshTimer }
    else s.win v :=
  State.win_modWin_eq (s.setCtx i (.bound (Binding.fresh w (s.win w).pages))) v w _

/-- Settles O24. -/
theorem completionOfRefreshAndSweepFrames : Obligations.CompletionOfRefreshAndSweepFrames := by
  refine ⟨fun s f w htx hsource => ⟨fun hwithdrawn i hreserved => ?_, fun hwithdrawn => ?_⟩, fun s f c htx hcurrent => ?_⟩
  · obtain ⟨arb, hcompleted⟩ := s.lineCompleted_eq
    have htell : s.lineCompleted.tellSource f = s.lineCompleted.bindContext i w .here := by
      have hctx : s.lineCompleted.reservedCtx w = some i := by rw [hcompleted]; exact hreserved
      rw [State.tellSource_of_refreshReq hsource, hwithdrawn, if_neg (by simp), State.refreshReqCompleted_of_reserved hctx]
    refine ⟨_, exec_frameCompleted htx, ?_⟩
    rw [htell]
    have hwin (v : WinId) : s.lineCompleted.win v = s.win v := by rw [hcompleted]; rfl
    have hctx (j : Fin 2) : s.lineCompleted.ctx j = s.ctx j := by rw [hcompleted]; rfl
    have htimer : s.lineCompleted.refreshTimer = s.refreshTimer := by rw [hcompleted]; rfl
    refine ⟨?_, ?_, fun v hv => ?_, fun j hj => ?_, ?_⟩
    · rw [State.settleGrants_ctx, State.bindContext_ctx, if_pos rfl, hwin]
      rfl
    · rw [State.settleGrants_win, State.bindContext_win, if_pos rfl, hwin, htimer]
      rfl
    · rw [State.settleGrants_win, State.bindContext_win, if_neg hv, hwin]
    · rw [State.settleGrants_ctx, State.bindContext_ctx, if_neg hj, hctx]
    · rw [State.settleGrants_frame, State.bindContext_eq, hcompleted]
  · refine ⟨_, exec_frameCompleted htx, ?_⟩
    rw [State.tellSource_of_refreshReq hsource, hwithdrawn, if_pos rfl, State.settleGrants_lineCompleted]
  · obtain ⟨arb, hcompleted⟩ := s.lineCompleted_eq
    have hse : s.lineCompleted.se = s.se := by rw [hcompleted]
    have hcur : s.lineCompleted.se.currentOf c.window = some c := by
      rw [hse]; exact SweepEngine.currentOf_of_window hcurrent rfl
    refine ⟨fun b g i sn n o hsource hbody => ⟨_, exec_frameCompleted htx, ?_⟩, fun hsource => ⟨_, exec_frameCompleted htx, ?_⟩,
      fun hsource => ?_⟩
    · have htell : s.lineCompleted.tellSource f = s.lineCompleted.modSe fun e => e.beginCompleted c.window i sn := by
        simp only [State.tellSource, hsource, hbody]
      rw [State.settleGrants_se, htell, State.modSe_se, SweepEngine.beginCompleted, hcur, hse]
      exact ⟨rfl, rfl, rfl⟩
    · have htell : s.lineCompleted.tellSource f =
          s.lineCompleted.modSe fun e => e.dataCompleted c.window (s.lineCompleted.win c.window).pages := by
        simp only [State.tellSource, hsource]
      have hwin : s.lineCompleted.win c.window = s.win c.window := by rw [hcompleted]; rfl
      rw [State.settleGrants_se, htell, State.modSe_se, SweepEngine.dataCompleted, hcur, hse, hwin]
    · intro queue
      have htell : s.lineCompleted.tellSource f = s.lineCompleted.clearSweep c := by
        simp only [State.tellSource, hsource, State.sweepEndCompleted, hcur]
      have hwin : s.lineCompleted.win c.window = s.win c.window := by rw [hcompleted]; rfl
      refine ⟨_, exec_frameCompleted htx, ?_⟩
      rw [State.settleGrants_se, htell, State.clearSweep_eq, hse, hwin]
      by_cases hagain : c.again = true ∧ (s.win c.window).ownership = .owner
      · simp only [queue, if_pos hagain]
      · simp only [queue, if_neg hagain, List.append_nil]

end Sys2Proof.Machine
end

section
/-!
Events, counters and update notes, the timers' rows, and the commands that set, acknowledge and probe
(R19, R21, R47, R69, R87, R97, R102, R140, R155, R161, R165 to R174, R182).
-/

namespace Sys2Proof.Machine

/-! ### Events, counters and notes (R165, R168, R169, R171) -/

theorem State.recordEvent_of_offline {s : State} (hline : s.li.line = .offline) (hhold : s.en.captureHold = false)
    (f : EventFields) :
    s.recordEvent f =
      { s with en := { s.en with
          record := { cause := some f.cause, window := f.window, station := f.station, address := f.address,
                      sequence := f.sequence, time := s.li.lineTime },
          captureHold := true, heldOccurrence := true } } := by
  simp only [State.recordEvent, State.modEn, EventUnit.capture, hhold, hline, decide_true, Bool.false_eq_true, if_false, if_true]
  rfl

theorem toNat_saturatingAdd (x : Word) (n : Nat) : (saturatingAdd x n).toNat = min 65535 (x.toNat + n) := by
  rw [saturatingAdd, BitVec.toNat_ofNat]
  omega

theorem getLsbD_or_bit {n : Nat} (x : BitVec n) {i k : Nat} (hk : k < n) :
    (x ||| ((1 <<< i : Nat) : BitVec n)).getLsbD k = (x.getLsbD k || decide (k = i)) := by
  have hbit : ((1 <<< i : Nat) : BitVec n).getLsbD k = decide (k = i) := by
    rw [BitVec.natCast_eq_ofNat, BitVec.getLsbD_ofNat, Nat.one_shiftLeft, Nat.testBit_two_pow]
    simp [hk, eq_comm]
  rw [BitVec.getLsbD_or, hbit]

theorem Window.noteOccurs_iff {x : Window} :
    x.noteOccurs = true ↔ x.desc.notifyModeCode = 2 ∨ (x.desc.notifyModeCode = 1 ∧ x.updated = false) := by
  generalize hcode : x.desc.notifyModeCode = code
  by_cases h0 : code = 0
  · simp [Window.noteOccurs, notifyModeOfCode, hcode, h0]
  by_cases h1 : code = 1
  · simp [Window.noteOccurs, notifyModeOfCode, hcode, h1]
  by_cases h2 : code = 2
  · simp [Window.noteOccurs, notifyModeOfCode, hcode, h2]
  · have hnone : notifyModeOfCode code = none := by rw [notifyModeOfCode, if_neg h0, if_neg h1, if_neg h2]
    simp only [Window.noteOccurs, hcode, hnone, h1, h2, Bool.false_eq_true, false_and, or_self]

theorem State.updateNote_eq_noted (s : State) (w : WinId) : s.updateNote w = s.noted w := by
  simp only [State.updateNote, State.noted]
  split <;> rfl

/-- Settles O54. -/
theorem eventsCountersAndNotes : Obligations.EventsCountersAndNotes := by
  refine ⟨fun s f hruns => State.recordEvent_of_runs hruns f, fun s f hline hhold => State.recordEvent_of_offline hline hhold f,
    fun e c n => ⟨?_, fun i hi => ?_, fun i => ?_, rfl⟩, fun s w => ?_⟩
  · simp only [EventUnit.bump, Fin.getElem_fin, Vector.getElem_set_self, toNat_saturatingAdd]
  · have hne : (c.index : Nat) ≠ i := fun h => hi (Fin.ext h.symm)
    simp only [EventUnit.bump, Fin.getElem_fin, Vector.getElem_set_ne _ _ hne]
  · rw [decide_eq_decide.2 (Fin.ext_iff (a := i) (b := c.index))]
    exact getLsbD_or_bit e.sticky i.isLt
  · rw [State.updateNote_eq_noted, State.noted]
    by_cases hoccurs : (s.win w).noteOccurs = true
    · rw [if_pos hoccurs, if_pos (Window.noteOccurs_iff.1 hoccurs)]
    · rw [if_neg hoccurs, if_neg fun h => hoccurs (Window.noteOccurs_iff.2 h)]

/-! ### Rows of the timers (R19, R21, R69, R87) -/

theorem exec_recoveryTimerExpiry {s : State} {n : Nat} (hline : s.li.line = .faulted) (htimer : s.li.recoveryTimer = .running n) :
    exec .recoveryTimerExpiry s =
      .next { s with li := { s.li with line := .listen, joinTimer := .running (s.lp.params.joinInterval * 1024),
                                       recoveryTimer := .stopped, faults := 0, recoveredOnce := true } } := by
  have hruns : s.li.line = .faulted ∧ s.li.recoveryTimer.isRunning = true := ⟨hline, by rw [htimer]; rfl⟩
  rw [exec, execRecoveryTimerExpiry, if_pos hruns]
  rfl

theorem exec_markTimerExpiry {s : State} {w : WinId} {n : Nat} (htimer : (s.win w).markTimer = .running n) :
    exec (.markTimerExpiry w) s =
      .next { s with windows := s.windows.set w { s.win w with markTimer := .running 0 } } := by
  have hruns : (s.win w).markTimer.isRunning = true := by rw [htimer]; rfl
  rw [exec, execMarkTimerExpiry, if_pos hruns]
  rfl

theorem exec_requestDelayExpiry {s : State} {w : WinId} {n : Nat} (hfollows : s.follows w)
    (hsync : (s.win w).sync = .gap ∨ (s.win w).sync = .unsynced) (hwait : (s.win w).wait = .requestDelay n) :
    exec (.requestDelayExpiry w) s = .next (s.requestDelayOver w) := by
  have hwaits : (s.win w).waitsDelay = true := by
    have hfollowed := Window.followed_iff.2 hfollows
    rcases hsync with hsync | hsync <;> simp [Window.waitsDelay, hfollowed, hsync, hwait, WaitTimer.isDelay]
  rw [exec, execRequestDelayExpiry, if_pos hwaits]

theorem State.requestDelayOver_of_free {s : State} {i : Fin 2} (h : s.freeCtx = some i) (w : WinId) :
    s.requestDelayOver w =
      { s with windows := s.windows.set w { s.win w with wait := .stopped }, contexts := s.contexts.set i (.reserved w) } := by
  simp only [State.requestDelayOver, h]
  rfl

theorem State.requestDelayOver_of_none {s : State} (h : s.freeCtx = none) (w : WinId) :
    s.requestDelayOver w =
      { s with windows := s.windows.set w { s.win w with wait := .stopped, contextWait := true } } := by
  simp only [State.requestDelayOver, h]
  simp [State.modWin, State.win]

/-- Settles O26. -/
theorem recoveryMarkAndDelayTimersExpire : Obligations.RecoveryMarkAndDelayTimersExpire := by
  refine ⟨fun s n => exec_recoveryTimerExpiry, fun s w n => exec_markTimerExpiry,
    fun s w n hfollows hsync hwait => ?_⟩
  rw [exec_requestDelayExpiry hfollows hsync hwait]
  refine ⟨fun h0 => ?_, fun h0 h1 => ?_, fun h0 h1 => ?_⟩
  · rw [State.requestDelayOver_of_free (i := 0) (by simp [State.freeCtx, State.findCtx, h0])]
    rfl
  · rw [State.requestDelayOver_of_free (i := 1) (by simp [State.freeCtx, State.findCtx, h0, h1])]
    rfl
  · rw [State.requestDelayOver_of_none (by simp [State.freeCtx, State.findCtx, h0, h1])]

/-! ### Windows changed one after the other -/

/-- A fold that changes each listed window by its own value, as long as the line and the local port stand still. -/
theorem State.foldl_window_steps {f : State → WinId → State} {g : WinId → Window → Window} (l : List WinId) (hl : l.Nodup)
    (s : State) (hf : ∀ t : State, t.li = s.li → t.lp = s.lp → ∀ w : WinId, f t w = t.modWin w (g w)) :
    ∃ ws : Vector Window 16, l.foldl f s = { s with windows := ws } ∧
      ∀ w : WinId, ws[w] = if w ∈ l then g w (s.win w) else s.win w := by
  induction l generalizing s with
  | nil => exact ⟨s.windows, rfl, fun w => by simp [State.win]⟩
  | cons a l ih =>
    obtain ⟨ha, hl⟩ := List.nodup_cons.1 hl
    obtain ⟨ws, hfold, hws⟩ := ih hl (s.modWin a (g a)) hf
    refine ⟨ws, by rw [List.foldl_cons, hf s rfl rfl, hfold]; rfl, fun w => ?_⟩
    rw [hws w, State.win_modWin_eq]
    by_cases hw : w = a
    · subst hw; simp [ha]
    · simp [hw]

/-! ### The first ONLINE entry (R69, R97, R102) -/

/-- What the first ONLINE entry makes of a window whose mark timer would start at `mark` and whose delay at `delay`. -/
def Window.started (mark : Timer) (delay : WaitTimer) (x : Window) : Window :=
  if !x.enabled then x
  else if x.ownership = .owner then { x with markTimer := mark }
  else if x.followed ∧ (x.sync = .gap ∨ x.sync = .unsynced) then { x with wait := delay }
  else x

theorem Window.started_of_off (mark : Timer) (delay : WaitTimer) {x : Window} (h : x.standing ≠ .enabled) :
    x.started mark delay = x := by
  simp [Window.started, Window.enabled, h]

theorem Window.started_of_owner (mark : Timer) (delay : WaitTimer) {x : Window} (h : x.standing = .enabled)
    (howner : x.ownership = .owner) : x.started mark delay = { x with markTimer := mark } := by
  simp [Window.started, Window.enabled, h, howner]

theorem Window.started_of_followed (mark : Timer) (delay : WaitTimer) {x : Window} (h : x.standing = .enabled)
    (hfollows : x.ownership = .follower ∨ x.ownership = .claiming) :
    x.started mark delay = { x with wait := if x.sync = .gap ∨ x.sync = .unsynced then delay else x.wait } := by
  have hfollowed : x.followed = true := by simpa [Window.followed] using hfollows
  have henabled : x.enabled = true := decide_eq_true h
  have howner : x.ownership ≠ .owner := by rcases hfollows with h | h <;> simp [h]
  by_cases hsync : x.sync = .gap ∨ x.sync = .unsynced
  · simp [Window.started, henabled, howner, hfollowed, hsync]
  · simp [Window.started, henabled, howner, hsync]

theorem State.startWindow_eq (s : State) (w : WinId) :
    s.startWindow w = s.modWin w (Window.started s.freshMarkTimer s.drawnTimer) := by
  simp only [State.startWindow]
  split
  · next h => exact (State.modWin_self s w _ (by simp only [Window.started, h, if_true])).symm
  · next h =>
    split
    · next howner => simp only [State.modWin, Window.started, if_neg h, if_pos howner]
    · next howner =>
      split
      · next hwaits => simp only [State.modWin, Window.started, if_neg h, if_neg howner, if_pos hwaits]
      · next hwaits => exact (State.modWin_self s w _ (by simp only [Window.started, if_neg h, if_neg howner, if_neg hwaits])).symm

/-- Window `w` has a START sweep, queued or current. -/
def SweepEngine.hasStart (e : SweepEngine) (w : WinId) : Prop :=
  (w, Origin.start) ∈ e.queue ∨ ∃ c : Sweep, e.current = some c ∧ c.window = w ∧ c.origin = .start

theorem SweepEngine.hasStart_promote {e : SweepEngine} {w : WinId} (h : e.hasStart w) : e.promote.hasStart w := by
  obtain ⟨queue, current, idCounter⟩ := e
  cases current with
  | some c => exact h
  | none =>
    cases queue with
    | nil => exact h
    | cons p rest =>
      rcases h with hqueue | ⟨c, hc, -⟩
      · rcases List.mem_cons.1 hqueue with rfl | hrest
        · exact .inr ⟨_, rfl, rfl, rfl⟩
        · exact .inl hrest
      · cases hc

theorem SweepEngine.hasStart_start_self (e : SweepEngine) (w : WinId) : (e.start w).hasStart w := by
  unfold SweepEngine.start
  split
  · next c hcurrent => exact .inr ⟨_, rfl, (SweepEngine.currentOf_eq_some hcurrent).2, rfl⟩
  · split
    · next hqueued =>
      obtain ⟨p, hp, hw⟩ := List.any_eq_true.1 hqueued
      exact .inl (List.mem_map.2 ⟨p, hp, if_pos (of_decide_eq_true hw)⟩)
    · exact SweepEngine.hasStart_promote (.inl (by simp))

theorem SweepEngine.hasStart_start {e : SweepEngine} {w : WinId} (h : e.hasStart w) (v : WinId) : (e.start v).hasStart w := by
  unfold SweepEngine.start
  split
  · next c hcurrent =>
    refine h.imp_right fun ⟨d, hd, hw, horigin⟩ => ?_
    have hc := (SweepEngine.currentOf_eq_some hcurrent).1
    rw [hc] at hd
    cases hd
    exact ⟨_, rfl, hw, rfl⟩
  · split
    · refine h.imp_left fun hqueue => List.mem_map.2 ⟨_, hqueue, ?_⟩
      by_cases hw : w = v <;> simp [hw]
    · exact SweepEngine.hasStart_promote (h.imp_left fun hqueue => by simp [hqueue])

theorem State.foldl_start (l : List WinId) (s : State) :
    (∃ e : SweepEngine, l.foldl (fun t w =>
        if (t.win w).enabled ∧ (t.win w).role = some .own then t.modSe fun e => e.start w else t) s = { s with se := e }) ∧
    ∀ w : WinId, s.se.hasStart w ∨ (w ∈ l ∧ (s.win w).enabled = true ∧ (s.win w).role = some .own) →
      (l.foldl (fun t w =>
        if (t.win w).enabled ∧ (t.win w).role = some .own then t.modSe fun e => e.start w else t) s).se.hasStart w := by
  induction l generalizing s with
  | nil => exact ⟨⟨s.se, rfl⟩, fun w h => h.elim id fun h => by simp at h⟩
  | cons a l ih =>
    rw [List.foldl_cons]
    by_cases hstarts : (s.win a).enabled ∧ (s.win a).role = some .own
    · rw [if_pos hstarts]
      obtain ⟨⟨e, he⟩, hkept⟩ := ih (s.modSe fun e => e.start a)
      refine ⟨⟨e, he⟩, fun w h => hkept w ?_⟩
      rcases h with h | ⟨hmem, hw⟩
      · exact .inl (SweepEngine.hasStart_start h a)
      · rcases List.mem_cons.1 hmem with rfl | hmem
        · exact .inl (SweepEngine.hasStart_start_self s.se w)
        · exact .inr ⟨hmem, hw⟩
    · rw [if_neg hstarts]
      obtain ⟨he, hkept⟩ := ih s
      refine ⟨he, fun w h => hkept w (h.imp_right fun ⟨hmem, hw⟩ => ⟨?_, hw⟩)⟩
      rcases List.mem_cons.1 hmem with rfl | hmem
      · exact absurd hw hstarts
      · exact hmem

theorem State.firstOnline_spec (s : State) :
    ∃ (ws : Vector Window 16) (e : SweepEngine),
      s.firstOnline = { s with li := { s.li with onlineSeen := true }, windows := ws, se := e } ∧
      (∀ w : WinId, ws[w] = (s.win w).started
        (if s.lp.params.markInterval = 0 then .stopped else .running (s.lp.params.markInterval * 1024))
        (.requestDelay (max 1 (s.li.backoff.toNat * 32)))) ∧
      ∀ w : WinId, (s.win w).enabled = true → (s.win w).role = some .own → e.hasStart w := by
  let seen : State := s.modLi fun li => { li with onlineSeen := true }
  obtain ⟨⟨e, he⟩, hstarts⟩ := State.foldl_start allWindows seen
  have hmark : seen.freshMarkTimer =
      if s.lp.params.markInterval = 0 then .stopped else .running (s.lp.params.markInterval * 1024) := by
    by_cases h : s.lp.params.markInterval = 0
    · simp [State.freshMarkTimer, seen, h]
    · simp [State.freshMarkTimer, seen, h, Timer.ofSpans, Config.spanBits]
  obtain ⟨ws, hfold, hws⟩ := State.foldl_window_steps (f := State.startWindow)
    (g := fun _ => Window.started seen.freshMarkTimer seen.drawnTimer) allWindows (by decide) seen.queueStartSweeps
    fun t hli hlp w => by
      have hline : t.li = seen.li := hli.trans (by rw [State.queueStartSweeps, he])
      have hport : t.lp = seen.lp := hlp.trans (by rw [State.queueStartSweeps, he])
      rw [State.startWindow_eq, State.freshMarkTimer, State.drawnTimer, State.drawDelay, hline, hport]
      rfl
  refine ⟨ws, e, ?_, fun w => ?_, fun w henabled hrole => ?_⟩
  · rw [State.firstOnline, hfold, State.queueStartSweeps, he]
    rfl
  · have hwin : seen.queueStartSweeps.win w = s.win w := by rw [State.queueStartSweeps, he]; rfl
    rw [hws w, if_pos (mem_allWindows w), hmark, hwin]
    rfl
  · have h := hstarts w (.inr ⟨mem_allWindows w, henabled, hrole⟩)
    rw [he] at h
    exact h

/-- Settles O25. -/
theorem joinTimerBringsOnline : Obligations.JoinTimerBringsOnline := by
  intro s hline
  have hjoin : exec .joinTimerExpiry s =
      .next (if s.li.onlineSeen then s.modLi fun li => { li with line := .online, joinTimer := .stopped }
        else (s.modLi fun li => { li with line := .online, joinTimer := .stopped }).firstOnline) := by
    rw [exec, execJoinTimerExpiry, if_pos hline]
  rw [hjoin]
  refine ⟨fun hseen => by rw [hseen]; rfl, fun hseen => ?_⟩
  obtain ⟨ws, e, honline, hws, hstarts⟩ :=
    State.firstOnline_spec (s.modLi fun li => { li with line := .online, joinTimer := .stopped })
  rw [hseen, if_neg (by simp), honline]
  refine ⟨_, rfl, rfl, fun w => ⟨fun hoff => ?_, fun hon howner => ?_, fun hon hfollows => ?_, fun hon hrole => ?_⟩⟩
  · refine (hws w).trans ?_
    exact Window.started_of_off _ _ hoff
  · exact (hws w).trans (Window.started_of_owner _ _ hon howner)
  · exact (hws w).trans (Window.started_of_followed _ _ hon hfollows)
  · exact hstarts w (by exact decide_eq_true hon) hrole

end Sys2Proof.Machine
end

section
/-!
Commands that set, acknowledge, send and probe, and writes of the control area (R47, R140, R155, R161, R167, R170, R172,
R174, R175, R180, R182).
-/

namespace Sys2Proof.Machine

/-! ### KEEP (R48, R140) -/

section Commands
variable {s : State} (hport : s.idlePort)
include hport

theorem exec_keep_of_namesNone (hnone : s.namesNone s.lp.args[0]) :
    exec .keep s = .next (s.answersRefused 0x0003 .badWindow) := by
  have harg : s.enabledWindowArg (s.arg 0) = none := State.enabledWindowArg_of_namesNone hnone
  simp only [exec, execKeep, State.portFree_of_idlePort hport, if_true, harg]
  rfl

theorem exec_keep_of_names {w : WinId} (hnames : s.names s.lp.args[0] w) :
    exec .keep s = .next (if !(s.win w).isShare then s.answersRefused 0x0003 .wrongRole
      else if s.lp.args[1] ≠ 0 ∧ s.lp.args[1] ≠ 1 then s.answersRefused 0x0003 .badArgument
      else ({ s with windows := s.windows.set w { s.win w with keep := decide (s.lp.args[1] = 1) } } : State).answersDone
        0x0003) := by
  have harg : s.enabledWindowArg (s.arg 0) = some w := State.enabledWindowArg_of_names hnames
  simp only [exec, execKeep, State.portFree_of_idlePort hport, if_true, harg]
  rfl

/-! ### ACK_UPDATES and NOTIFY_ACK (R172, R174) -/

theorem exec_ackUpdates : exec .ackUpdates s = .next ((s.clearUpdates s.lp.args[0]).answersDone 0x0004) := by
  simp only [exec, execAckUpdates, State.portFree_of_idlePort hport, if_true]
  rfl

theorem exec_notifyAck :
    exec .notifyAck s =
      .next (({ s with en := { s.en with pending := s.en.pending &&& ~~~(s.lp.args[0].setWidth 4) } } : State).answersDone
        0x0005) := by
  simp only [exec, execNotifyAck, State.portFree_of_idlePort hport, if_true]
  rfl

theorem exec_clearEvent :
    exec .clearEvent s =
      .next (({ s with en := { s.en with captureHold := false, moreEvents := 0, summary := 0 } } : State).answersDone
        0x0006) := by
  simp only [exec, execClearEvent, State.portFree_of_idlePort hport, if_true]
  rfl

theorem exec_clearCounters :
    exec .clearCounters s =
      .next (({ s with en := { s.en with counters := Vector.replicate 12 0, sticky := 0 } } : State).answersDone 0x0007) := by
  simp only [exec, execClearCounters, State.portFree_of_idlePort hport, if_true]
  rfl

/-! ### MESSAGE_SEND, MESSAGE_POP and unknown codes (R155, R161, R182) -/

theorem exec_messageSend :
    exec .messageSend s = .next (if !s.li.line.receives then s.answersRefused 0x0009 .wrongState
      else if !s.mu.staging.legal s.station then s.answersRefused 0x0009 .badArgument
      else if 4 ≤ s.mu.outQueue.length then s.answersRefused 0x0009 .full
      else ({ s with mu := { s.mu with outQueue := s.mu.outQueue ++ [s.mu.staging.message] } } : State).answersDone
        0x0009) := by
  simp only [exec, execMessageSend, State.portFree_of_idlePort hport, if_true]
  rfl

theorem exec_messagePop :
    exec .messagePop s = .next (if s.mu.inFifo = [] then s.answersRefused 0x000A .empty
      else ({ s with mu := { s.mu with inFifo := s.mu.inFifo.tail } } : State).answersDone 0x000A) := by
  simp only [exec, execMessagePop, State.portFree_of_idlePort hport, if_true]
  rfl

theorem exec_unknownCommand {code : Word} (hcode : code = 0 ∨ 13 < code.toNat) :
    exec (.unknownCommand code) s = .next (s.answersRefused code .badArgument) := by
  have hnone : namesCommand code = false := by
    rcases hcode with rfl | hcode
    · decide
    · simp [namesCommand, hcode]
  simp only [exec, execUnknownCommand, State.portFree_of_idlePort hport, hnone, Bool.not_false, Bool.and_self, if_true]
  rfl

/-! ### PROBE (R47) -/

theorem exec_probe_refused (hdomain : 15 < s.lp.args[0].toNat) :
    exec .probe s = .next (s.answersRefused 0x0008 .badArgument) := by
  have hhigh : 15 < (s.arg 0).toNat := hdomain
  simp only [exec, execProbe, State.portFree_of_idlePort hport, if_true, if_pos hhigh]
  rfl

end Commands

theorem State.clearUpdates_spec (s : State) (set : Word) :
    ∃ ws : Vector Window 16, s.clearUpdates set = { s with windows := ws } ∧
      ∀ w : WinId, ws[w] = if set.getLsbD w.val then { s.win w with updated := false, updateCount := 0 } else s.win w := by
  obtain ⟨ws, hfold, hws⟩ := State.foldl_window_steps
    (f := fun t w => if inWindowSet set w then t.modWin w fun y => { y with updated := false, updateCount := 0 } else t)
    (g := fun w x => if inWindowSet set w then { x with updated := false, updateCount := 0 } else x) allWindows (by decide) s
    fun t _ _ w => by
      cases inWindowSet set w with
      | true => rfl
      | false => exact (State.modWin_self t w _ rfl).symm
  exact ⟨ws, hfold, fun w => (hws w).trans (if_pos (mem_allWindows w))⟩

theorem Staging.legal_iff {m : Staging} {station : Station} :
    m.legal station = true ↔ 1 ≤ m.destination.toNat ∧ m.destination.toNat ≤ 31 ∧ m.destination ≠ station ∧
      1 ≤ m.urgency.toNat ∧ m.urgency.toNat ≤ 3 ∧ m.length.toNat ≤ 32 := by
  simp only [Staging.legal, Bool.and_eq_true, decide_eq_true_eq, and_assoc]
  exact Iff.rfl

theorem LineMapEntry.holds_iff {e : LineMapEntry} {domain page : Word} :
    e.holds domain page = true ↔ e.domain.toNat = domain.toNat ∧ e.lineBase.toNat ≤ page.toNat ∧
      page.toNat < e.lineBase.toNat + e.pageCount.toNat := by
  simp only [LineMapEntry.holds, Bool.and_eq_true, decide_eq_true_eq, and_assoc]

theorem State.probe_of_none {s : State} {domain page : Word} (h : ∀ e ∈ s.maps.lineMap, e.holds domain page ≠ true) :
    s.probe domain page = ProbeFields.clear := by
  have hfind := List.find?_eq_none.2 h
  simp only [State.probe, hfind]

theorem State.probe_of_first {s : State} {domain page : Word} {e : LineMapEntry} {front back : List LineMapEntry}
    (hmap : s.maps.lineMap = front ++ e :: back) (hfront : ∀ x ∈ front, x.holds domain page ≠ true)
    (he : e.holds domain page = true) :
    s.probe domain page =
      { found := true, window := e.window, pageIndex := page.toNat - e.lineBase.toNat,
        localPage := (s.win e.window).desc.localBase.toNat + (page.toNat - e.lineBase.toNat) } := by
  have hfind : s.maps.lineMap.find? (fun x => x.holds domain page) = some e := by
    have hhead : (e :: back).find? (fun x => x.holds domain page) = some e := List.find?_cons_of_pos he
    rw [hmap, List.find?_append, List.find?_eq_none.2 hfront, hhead]
    rfl
  simp only [State.probe, hfind]

/-- Settles O50. -/
theorem settingMessageAndProbeCommands : Obligations.SettingMessageAndProbeCommands := by
  intro s hport
  refine ⟨exec_keep_of_namesNone hport, fun w hnames => ?_, ?_, ?_, exec_clearEvent hport, exec_clearCounters hport,
    exec_probe_refused hport, fun hdomain => ?_, ?_, fun hempty => ?_, fun m rest hfifo => ?_, fun code hcode =>
    exec_unknownCommand hport hcode⟩
  · rw [exec_keep_of_names hport hnames]
    by_cases hshare : (s.win w).role = some .share
    · rw [if_neg (by simp [Window.isShare, hshare]), if_neg (not_not.2 hshare)]
      by_cases h0 : s.lp.args[1] = 0
      · rw [if_neg fun h => h.1 h0, if_pos h0, h0]
        rfl
      · rw [if_neg h0]
        by_cases h1 : s.lp.args[1] = 1
        · rw [if_neg fun h => h.2 h1, if_pos h1, h1]
          rfl
        · rw [if_pos ⟨h0, h1⟩, if_neg h1]
    · rw [if_pos (by simp [Window.isShare, hshare]), if_pos hshare]
  · obtain ⟨ws, hclear, hws⟩ := s.clearUpdates_spec s.lp.args[0]
    refine ⟨_, exec_ackUpdates hport, ?_⟩
    rw [hclear]
    exact ⟨hws, rfl⟩
  · refine ⟨_, exec_notifyAck hport, fun v => ?_, rfl⟩
    have hv : v.val < 4 := v.isLt
    show (s.en.pending &&& ~~~(s.lp.args[0].setWidth 4)).getLsbD v.val = _
    simp [hv]
  · intro holds
    rw [exec_probe hport hdomain]
    refine ⟨fun hnone => ?_, fun e front back hmap hfront he => ?_⟩
    · rw [State.probe_of_none fun e he h => hnone e he (LineMapEntry.holds_iff.1 h)]
      rfl
    · rw [State.probe_of_first hmap (fun x hx h => hfront x hx (LineMapEntry.holds_iff.1 h)) (LineMapEntry.holds_iff.2 he)]
  · intro m legal
    rw [exec_messageSend hport]
    have hreceives (hruns : s.li.line.runs) : ¬(!s.li.line.receives) = true := by simp [LineState.receives_iff.2 hruns]
    have hfields (hlegal : legal) : ¬(!s.mu.staging.legal s.station) = true := by
      simp [show s.mu.staging.legal s.station = true from Staging.legal_iff.2 hlegal]
    refine ⟨fun hstill => ?_, fun hruns hillegal => ?_, fun hruns hlegal hfull => ?_, fun hruns hlegal hroom => ?_⟩
    · rw [if_pos]
      rw [Bool.not_eq_true', ← Bool.not_eq_true, LineState.receives_iff]
      exact hstill
    · rw [if_neg (hreceives hruns), if_pos]
      rw [Bool.not_eq_true', ← Bool.not_eq_true, Staging.legal_iff]
      exact hillegal
    · rw [if_neg (hreceives hruns), if_neg (hfields hlegal), if_pos hfull]
    · rw [if_neg (hreceives hruns), if_neg (hfields hlegal),
        if_neg (not_le.2 hroom)]
      rfl
  · rw [exec_messagePop hport, if_pos hempty]
  · rw [exec_messagePop hport, hfifo, if_neg (by simp)]
    rfl

end Sys2Proof.Machine
end

section
/-!
Writes of the control area (R175, R180).
-/

namespace Sys2Proof.Machine

/-! ### Word addresses above the replica (R179) -/

theorem controlOffset_eq (a : BitVec 16) : controlOffset a = 2 * a.toNat - 0x10000 := by
  unfold controlOffset evenAddr
  omega

theorem controlAddr_controlOffset {a : BitVec 16} (h : 0x8000 ≤ a.toNat) : controlAddr (controlOffset a) = a := by
  have ha := a.isLt
  apply BitVec.eq_of_toNat_eq
  rw [controlAddr, controlOffset_eq, BitVec.toNat_ofNat]
  omega

theorem toNat_add_ofNat {base : BitVec 16} {n : Nat} (h : base.toNat + n < 65536) :
    (base + BitVec.ofNat 16 n).toNat = base.toNat + n := by
  rw [BitVec.toNat_add, BitVec.toNat_ofNat]
  omega

theorem isControlWrite_of {a : BitVec 16} {be : BitVec 2} (hhigh : 0x8000 ≤ a.toNat) (hmask : a ≠ 0x8041)
    (hcommand : ¬(a = 0x8050 ∧ be = 3)) : isControlWrite a be = true := by
  have hreplica : inReplica a = false := by
    rw [← Bool.not_eq_true, inReplica_iff]
    exact not_lt.2 hhigh
  have hcommand' : (decide (a = commandWordAddr) && decide (be = 3)) = false := by
    rw [← Bool.not_eq_true, Bool.and_eq_true, decide_eq_true_eq, decide_eq_true_eq]
    exact hcommand
  have hmask' : decide (a = maskWordAddr) = false := decide_eq_false hmask
  rw [isControlWrite, hreplica, hmask', hcommand']
  rfl

section Port
variable {s : State} (hport : s.idlePort)
include hport

theorem exec_controlWrite {a : BitVec 16} {be : BitVec 2} (data : Word) (hhigh : 0x8000 ≤ a.toNat) (hmask : a ≠ 0x8041)
    (hcommand : ¬(a = 0x8050 ∧ be = 3)) :
    exec (.controlWrite a be data) s =
      .next (({ s with lp := s.lp.served true a be data } : State).storeControl (2 * a.toNat - 0x10000) be data) := by
  simp only [exec, execControlWrite, State.portFree_of_idlePort hport, isControlWrite_of hhigh hmask hcommand, Bool.and_self,
    if_true, controlOffset_eq]
  rfl

theorem exec_maskWordWrite (be : BitVec 2) (data : Word) :
    exec (.maskWordWrite be data) s =
      .next { s with lp := s.lp.served true 0x8041 be data,
                     en := { s.en with mask := if be.getLsbD 0 then data.setWidth 4 else s.en.mask } } := by
  simp only [exec, execMaskWordWrite, State.portFree_of_idlePort hport, if_true]
  by_cases hlow : be.getLsbD 0 = true
  · rw [if_pos (show be0 be = true from hlow), if_pos hlow]
    rfl
  · rw [if_neg (show ¬be0 be = true from hlow), if_neg hlow]
    rfl

end Port

/-! ### What a word stores (R180, R194) -/

theorem getLsbD_mergeWord (be : BitVec 2) (old data : Word) {k : Nat} (hk : k < 16) :
    (mergeWord be old data).getLsbD k = if be.getLsbD (k / 8) then data.getLsbD k else old.getLsbD k := by
  have hlow (x : Word) (h : k < 8) : (lowByte x).getLsbD k = x.getLsbD k := by simp [lowByte, h]
  have hhigh (x : Word) (h : ¬k < 8) : (highByte x).getLsbD (k - 8) = x.getLsbD k := by
    have hin : k - 8 < 8 := by omega
    have hback : 8 + (k - 8) = k := by omega
    simp [highByte, hin, hback]
  rw [mergeWord, getLsbD_wordOf, be0, be1]
  by_cases h : k < 8
  · have hbyte : k / 8 = 0 := by omega
    rw [if_pos h, hbyte]
    split <;> exact hlow _ h
  · have hbyte : k / 8 = 1 := by omega
    rw [if_neg h, hbyte]
    split <;> exact hhigh _ h

theorem State.storeControl_of_arg (s : State) (i : Fin 4) (be : BitVec 2) (data : Word) :
    s.storeControl (0x0A2 + 2 * i.val) be data =
      { s with lp := { s.lp with args := s.lp.args.set i (mergeWord be (s.lp.args[i]) data) } } := by
  have hi := i.isLt
  have hrange : 0x0A2 ≤ 0x0A2 + 2 * i.val ∧ 0x0A2 + 2 * i.val ≤ 0x0A8 := by omega
  have hindex : (0x0A2 + 2 * i.val - 0x0A2) / 2 = i.val := by omega
  rw [State.storeControl, if_pos hrange, hindex, State.writeArg, dif_pos hi]
  rfl

/-- The staging area with one of its fields taken from D[7:0] (R180). -/
theorem State.storeControl_of_field (s : State) {off : Nat} (hoff : 0x0C0 ≤ off ∧ off ≤ 0x0C8) (be : BitVec 2) (data : Word) :
    s.storeControl off be data =
      { s with mu := { s.mu with
        staging := if be.getLsbD 0 then s.mu.staging.writeField off (data.setWidth 8) else s.mu.staging } } := by
  have harg : ¬(0x0A2 ≤ off ∧ off ≤ 0x0A8) := by omega
  rw [State.storeControl, if_neg harg, if_pos hoff, be0]
  cases be.getLsbD 0 <;> rfl

theorem State.storeControl_of_payload (s : State) (i : Fin 16) (be : BitVec 2) (data : Word) :
    s.storeControl (0x0D0 + 2 * i.val) be data =
      { s with mu := { s.mu with staging := s.mu.staging.writePayloadWord (2 * i.val) be data } } := by
  have hi := i.isLt
  have harg : ¬(0x0A2 ≤ 0x0D0 + 2 * i.val ∧ 0x0D0 + 2 * i.val ≤ 0x0A8) := by omega
  have hfield : ¬(0x0C0 ≤ 0x0D0 + 2 * i.val ∧ 0x0D0 + 2 * i.val ≤ 0x0C8) := by omega
  have hpayload : 0x0D0 ≤ 0x0D0 + 2 * i.val ∧ 0x0D0 + 2 * i.val ≤ 0x0EF := by omega
  have hindex : 0x0D0 + 2 * i.val - 0x0D0 = 2 * i.val := by omega
  rw [State.storeControl, if_neg harg, if_neg hfield, if_pos hpayload, hindex]
  rfl

theorem State.storeControl_of_unnamed (s : State) {off : Nat} (harg : ¬(0x0A2 ≤ off ∧ off ≤ 0x0A8))
    (hfield : ¬(0x0C0 ≤ off ∧ off ≤ 0x0C8)) (hpayload : ¬(0x0D0 ≤ off ∧ off ≤ 0x0EF)) (be : BitVec 2) (data : Word) :
    s.storeControl off be data = s := by
  rw [State.storeControl, if_neg harg, if_neg hfield, if_neg hpayload]

theorem Staging.writePayload_eq (m : Staging) (i : Fin 32) (b : Byte) :
    m.writePayload i.val b = { m with payload := m.payload.set i b } := by
  rw [Staging.writePayload, dif_pos i.isLt]

theorem Staging.writePayloadWord_spec (m : Staging) (i : Fin 16) (be : BitVec 2) (data : Word) :
    ∃ payload : Vector Byte 32, m.writePayloadWord (2 * i.val) be data = { m with payload := payload } ∧
      ∀ k : Fin 32, payload[k] =
        if k.val = 2 * i.val ∧ be.getLsbD 0 = true then data.setWidth 8
        else if k.val = 2 * i.val + 1 ∧ be.getLsbD 1 = true then (data >>> 8).setWidth 8
        else m.payload[k] := by
  have hi := i.isLt
  let even : Fin 32 := ⟨2 * i.val, by omega⟩
  let odd : Fin 32 := ⟨2 * i.val + 1, by omega⟩
  have heven (x : Staging) (b : Byte) : x.writePayload (2 * i.val) b = { x with payload := x.payload.set even b } :=
    Staging.writePayload_eq x even b
  have hodd (x : Staging) (b : Byte) : x.writePayload (2 * i.val + 1) b = { x with payload := x.payload.set odd b } :=
    Staging.writePayload_eq x odd b
  have hset (v : Vector Byte 32) (j k : Fin 32) (b : Byte) : (v.set j b)[k] = if k.val = j.val then b else v[k] := by
    simp only [Fin.getElem_fin, Vector.getElem_set, eq_comm]
  simp only [Staging.writePayloadWord, be0, be1, heven, hodd]
  cases be.getLsbD 0 with
  | false =>
    cases be.getLsbD 1 with
    | false => exact ⟨m.payload, rfl, fun k => by simp⟩
    | true => exact ⟨_, rfl, fun k => by rw [hset]; simp [odd, highByte]⟩
  | true =>
    cases be.getLsbD 1 with
    | false => exact ⟨_, rfl, fun k => by rw [hset]; simp [even, lowByte]⟩
    | true =>
      refine ⟨(m.payload.set even (lowByte data)).set odd (highByte data), rfl, fun k => ?_⟩
      rw [hset, hset]
      by_cases hk : k.val = 2 * i.val
      · have hother : ¬k.val = odd.val := by simp only [odd]; omega
        rw [if_neg hother, if_pos hk, if_pos ⟨hk, rfl⟩]
        rfl
      · rw [if_neg (c := k.val = 2 * i.val ∧ true = true) fun h => hk h.1]
        by_cases hk1 : k.val = 2 * i.val + 1
        · rw [if_pos hk1, if_pos ⟨hk1, rfl⟩]
          rfl
        · rw [if_neg hk1, if_neg hk, if_neg fun h => hk1 h.1]

/-- Settles O52. -/
theorem controlWrites : Obligations.ControlWrites := by
  intro s hport
  refine ⟨exec_maskWordWrite hport, fun i be data => ⟨_, ?_, fun k hk => getLsbD_mergeWord be _ data hk⟩, fun v => ?_,
    fun be data => ?_, fun i be data => ?_, fun a be data hhigh hmask hcommand hunnamed => ?_⟩
  · have hi := i.isLt
    have ha : (0x8051 + BitVec.ofNat 16 i.val : BitVec 16).toNat = 0x8051 + i.val := toNat_add_ofNat (by simp; omega)
    have hne (x : BitVec 16) (hx : x.toNat < 0x8051) : 0x8051 + BitVec.ofNat 16 i.val ≠ x := fun h => by
      rw [h] at ha; omega
    have hoff : 2 * (0x8051 + i.val) - 0x10000 = 0x0A2 + 2 * i.val := by omega
    rw [exec_controlWrite hport data (by rw [ha]; omega) (hne _ (by decide)) fun h => hne _ (by decide) h.1, ha, hoff,
      State.storeControl_of_arg]
    rfl
  · have hv : v.val < 4 := v.isLt
    rw [EventUnit.notify, BitVec.getLsbD_and, BitVec.getLsbD_not]
    simp [hv]
  · have hfield (a : BitVec 16) (hlow : 0x8060 ≤ a.toNat) (hhigh : a.toNat ≤ 0x8064) :
        exec (.controlWrite a be data) s =
          .next { s with lp := s.lp.served true a be data, mu := { s.mu with
            staging := if be.getLsbD 0 then s.mu.staging.writeField (2 * a.toNat - 0x10000) (data.setWidth 8)
              else s.mu.staging } } := by
      have hne (x : BitVec 16) (hx : x.toNat < 0x8060) : a ≠ x := fun h => by rw [h] at hlow; omega
      rw [exec_controlWrite hport data (by omega) (hne _ (by decide)) fun h => hne _ (by decide) h.1,
        State.storeControl_of_field _ (by omega)]
    intro m taken stores
    have hstores (a : BitVec 16) (off : Nat) (m' : Staging) (hlow : 0x8060 ≤ a.toNat) (hhigh : a.toNat ≤ 0x8064)
        (hoff : 2 * a.toNat - 0x10000 = off)
        (hm : m' = if be.getLsbD 0 then m.writeField off (data.setWidth 8) else m) : stores a m' :=
      (hfield a hlow hhigh).trans (by rw [hm, hoff])
    refine ⟨hstores _ 0x0C0 _ (by decide) (by decide) (by decide) ?_, hstores _ 0x0C2 _ (by decide) (by decide) (by decide) ?_,
      hstores _ 0x0C4 _ (by decide) (by decide) (by decide) ?_, hstores _ 0x0C6 _ (by decide) (by decide) (by decide) ?_,
      hstores _ 0x0C8 _ (by decide) (by decide) (by decide) ?_⟩
    all_goals
      simp only [taken]
      generalize be.getLsbD 0 = low
      cases low <;> rfl
  · have hi := i.isLt
    have ha : (0x8068 + BitVec.ofNat 16 i.val : BitVec 16).toNat = 0x8068 + i.val := toNat_add_ofNat (by simp; omega)
    have hne (x : BitVec 16) (hx : x.toNat < 0x8068) : 0x8068 + BitVec.ofNat 16 i.val ≠ x := fun h => by
      rw [h] at ha; omega
    have hoff : 2 * (0x8068 + i.val) - 0x10000 = 0x0D0 + 2 * i.val := by omega
    obtain ⟨payload, hword, hpayload⟩ := s.mu.staging.writePayloadWord_spec i be data
    refine ⟨_, exec_controlWrite hport data (by rw [ha]; omega) (hne _ (by decide)) fun h => hne _ (by decide) h.1, ?_⟩
    rw [ha, hoff, State.storeControl_of_payload, hword]
    exact ⟨hpayload, rfl⟩
  · rw [exec_controlWrite hport data hhigh hmask hcommand, State.storeControl_of_unnamed _ (by omega) (by omega) (by omega)]

end Sys2Proof.Machine
end

section
/-!
The follower's operations field by field: reservations released, contexts found and bound, and the entries to sync states
(R76, R77, R86, R90, R113); and the frames that a window's role decides alone (R78, R127).
-/

namespace Sys2Proof.Machine

/-! ### Events on a state whose line runs -/

theorem State.drawnTimer_eq_newDelay (s : State) : s.drawnTimer = s.newDelay := rfl

/-- An event on a state `t` that differs from `s` in neither line time, line state nor event vector. -/
theorem State.recordEvent_of_kept {s t : State} (hruns : s.li.line.runs) (hline : t.li.line = s.li.line)
    (htime : t.li.lineTime = s.li.lineTime) (hlp : t.lp = s.lp) (f : EventFields) :
    t.recordEvent f = { t with en := s.eventIn t.en f } := by
  rw [State.recordEvent_of_runs (hline ▸ hruns)]
  simp only [State.eventOf, State.eventIn, htime, hlp]

/-! ### Contexts found (R113) -/

section Contexts
variable {s : State} {w : WinId}

theorem RefreshContext.isBoundTo_iff {c : RefreshContext} :
    c.isBoundTo w = true ↔ ∃ b : Binding, c = .bound b ∧ b.window = w := by
  cases c <;> simp [RefreshContext.isBoundTo]

theorem State.reservedCtx_some {i : Fin 2} (h : s.reservedCtx w = some i) : s.ctx i = .reserved w := by
  simpa using State.findCtx_some h

theorem State.findCtx_eq_some_iff {p : RefreshContext → Bool} {i : Fin 2} :
    s.findCtx p = some i ↔ p (s.ctx i) = true ∧ ∀ j : Fin 2, j < i → p (s.ctx j) = false := by
  unfold State.findCtx
  match i with
  | 0 =>
    cases h0 : p (s.ctx 0) <;> cases h1 : p (s.ctx 1) <;> simp
  | 1 =>
    cases h0 : p (s.ctx 0) <;> cases h1 : p (s.ctx 1) <;> simp [h0]

theorem State.findCtx_eq_none_iff {p : RefreshContext → Bool} :
    s.findCtx p = none ↔ ∀ i : Fin 2, p (s.ctx i) = false := by
  unfold State.findCtx
  cases h0 : p (s.ctx 0) <;> cases h1 : p (s.ctx 1) <;> simp [Fin.forall_fin_two, h0, h1]

theorem State.bindingOf_of_bound {i : Fin 2} {b : Binding} (hbound : s.boundCtx w = some i) (hctx : s.ctx i = .bound b) :
    s.bindingOf w = some b := by
  simp only [State.bindingOf, hbound, Option.bind_some, hctx, RefreshContext.binding]

theorem State.modBinding_of_bound {i : Fin 2} {b : Binding} (hbound : s.boundCtx w = some i) (hctx : s.ctx i = .bound b)
    (f : Binding → Binding) : s.modBinding w f = { s with contexts := s.contexts.set i (.bound (f b)) } := by
  simp only [State.modBinding, hbound, hctx]
  rfl

theorem State.releaseBound_of_bound {i : Fin 2} (hbound : s.boundCtx w = some i) : s.releaseBound w = s.freeContext i := by
  simp only [State.releaseBound, hbound]

theorem State.releaseBound_of_none (hbound : s.boundCtx w = none) : s.releaseBound w = s := by
  simp only [State.releaseBound, hbound]

end Contexts

/-! ### Frames withdrawn by their sources (R13) -/

theorem State.withdraws_refl {s t : State} {p : Source → Prop} (htx : t.li.tx = s.li.tx) (hnone : ∀ src : Source, ¬p src) :
    s.withdraws t p := by
  refine ⟨fun h => htx.trans h, fun o h => ⟨o.withdrawn, htx.trans h, ?_⟩, fun o h => ⟨o.withdrawn, htx.trans h, ?_⟩⟩ <;>
    simp [hnone]

theorem State.withdraws_of_mapOnLine {s t : State} {p : Source → Prop} {q : Source → Bool} (hq : ∀ src : Source, q src = true ↔ p src)
    (htx : t.li.tx = s.li.tx.mapOnLine fun f => if q f.source then f.withdraw else f) : s.withdraws t p := by
  have hone (o : OnLine) : ∃ b : Bool, (if q o.source then o.withdraw else o) = { o with withdrawn := b } ∧
      (b = true ↔ o.withdrawn = true ∨ p o.source) := by
    by_cases h : q o.source = true
    · exact ⟨true, by rw [if_pos h]; rfl, by simp [(hq _).1 h]⟩
    · exact ⟨o.withdrawn, by rw [if_neg h], by simp [mt (hq _).2 h]⟩
  refine ⟨fun h => by rw [htx, h]; rfl, fun o h => ?_, fun o h => ?_⟩
  · obtain ⟨b, hb, hiff⟩ := hone o
    exact ⟨b, by rw [htx, h, Transmitter.mapOnLine, hb], hiff⟩
  · obtain ⟨b, hb, hiff⟩ := hone o
    exact ⟨b, by rw [htx, h, Transmitter.mapOnLine, hb], hiff⟩

/-- Two withdrawals one after the other. -/
theorem State.withdraws_trans {s t u : State} {p q : Source → Prop} (h : s.withdraws t p) (h' : t.withdraws u q) :
    s.withdraws u fun src => p src ∨ q src := by
  obtain ⟨hidle, harb, hsend⟩ := h
  obtain ⟨hidle', harb', hsend'⟩ := h'
  refine ⟨fun h => hidle' (hidle h), fun o h => ?_, fun o h => ?_⟩
  · obtain ⟨b, hb, hiff⟩ := harb o h
    obtain ⟨b', hb', hiff'⟩ := harb' _ hb
    exact ⟨b', hb', by rw [hiff', hiff, or_assoc]⟩
  · obtain ⟨b, hb, hiff⟩ := hsend o h
    obtain ⟨b', hb', hiff'⟩ := hsend' _ hb
    exact ⟨b', hb', by rw [hiff', hiff, or_assoc]⟩

theorem State.withdraws_congr {s t : State} {p q : Source → Prop} (h : s.withdraws t p) (hpq : ∀ src : Source, p src ↔ q src) :
    s.withdraws t q := by
  rwa [show p = q from funext fun src => propext (hpq src)] at h

theorem State.withdraws_tx_congr {s s' t t' : State} {p : Source → Prop} (h : s.withdraws t p) (hs : s'.li.tx = s.li.tx)
    (ht : t'.li.tx = t.li.tx) : s'.withdraws t' p := by
  simpa only [State.withdraws, hs, ht] using h

/-! ### A reservation released (R90) -/

section Reservation
variable (s : State) (w : WinId)

theorem State.releaseReservation_of_none {s : State} {w : WinId} (h : s.reservedCtx w = none) : s.releaseReservation w = s := by
  simp only [State.releaseReservation, h]

theorem State.releaseReservation_win_eq (v : WinId) :
    (s.releaseReservation w).win v =
      if (s.win v).contextWait = true ∧ s.reservedCtx w ≠ none then
        { s.win v with contextWait := false, wait := s.newDelay } else s.win v := by
  cases h : s.reservedCtx w with
  | none => rw [State.releaseReservation_of_none h, if_neg (by simp)]
  | some i =>
    have hrelease : s.releaseReservation w = (s.withdrawRefreshReq w).freeContext i := by
      simp only [State.releaseReservation, h]
    rw [hrelease, State.freeContext_win]
    by_cases hwaits : (s.win v).contextWait = true
    · rw [if_pos (by exact hwaits), if_pos ⟨hwaits, by simp⟩]
      rfl
    · rw [if_neg (by exact hwaits), if_neg fun hand => hwaits hand.1]
      rfl

theorem State.releaseReservation_ctx (j : Fin 2) :
    (s.releaseReservation w).ctx j = if s.reservedCtx w = some j then .free else s.ctx j := by
  obtain ⟨tx, cs, ws, hframe, -, hctx⟩ := s.releaseReservation_frame w
  rw [hframe]
  exact hctx j

theorem State.releaseReservation_withdraws :
    s.withdraws (s.releaseReservation w) fun src => src = .refreshReq w ∧ s.reservedCtx w ≠ none := by
  cases h : s.reservedCtx w with
  | none => exact State.withdraws_refl (by rw [State.releaseReservation_of_none h]) (by simp)
  | some i =>
    refine State.withdraws_of_mapOnLine (q := fun src => decide (src = .refreshReq w)) (by simp) ?_
    simp only [State.releaseReservation, h, State.freeContext_eq]
    rfl

/-- A binding is not a reservation: it stands as reservations are released. -/
theorem State.releaseReservation_boundCtx (v : WinId) : (s.releaseReservation w).boundCtx v = s.boundCtx v := by
  have hsame (j : Fin 2) : ((s.releaseReservation w).ctx j).isBoundTo v = (s.ctx j).isBoundTo v := by
    rw [State.releaseReservation_ctx]
    split
    · next h => rw [State.reservedCtx_some h]; rfl
    · rfl
  simp only [State.boundCtx, State.findCtx, hsame]

end Reservation

/-! ### UPDATE, MARK and the frames of ownership by the window's role (R78, R127) -/

section Roles
variable {s : State} {w : WinId} {src : Station} {b : Word} {g : Byte}

theorem State.handleFor_update_of_follow (hrole : (s.win w).role = some .follow) (rs : List PostRecord) :
    s.handleFor w src (.update b g rs) =
      if src = (s.win w).desc.owner then s.takeRecords w src false false rs else s.foreign := by
  simp only [State.handleFor, State.ownerChecked, hrole]

theorem State.handleFor_mark_of_follow (hrole : (s.win w).role = some .follow) (last : Word) :
    s.handleFor w src (.mark b g last) =
      if src = (s.win w).desc.owner then s.takeMark w src last false else s.foreign := by
  simp only [State.handleFor, State.ownerChecked, hrole]

theorem State.foreign_eq (s : State) : s.foreign = { s with en := s.en.bump .foreign 1 } := rfl

theorem State.ownConflict_of_runs (hruns : s.li.line.runs) :
    s.ownConflict w src =
      { s with en := s.eventIn (s.en.bump .conflict 1) { cause := .ownershipConflict, window := some w, station := some src } } :=
  State.recordEvent_of_runs (s := s.count .conflict) hruns _

end Roles

/-- Settles O36. -/
theorem rolesDecideFrames : Obligations.RolesDecideFrames := by
  intro s w src b g
  refine ⟨fun hrole => ⟨fun howner => ⟨fun rs => ?_, fun last => ?_⟩, fun hother body hposting => ?_, fun body hownership => ?_⟩,
    fun hrole hruns body hbody => ?_⟩
  · rw [State.handleFor_update_of_follow hrole, if_pos howner]
  · rw [State.handleFor_mark_of_follow hrole, if_pos howner]
  · cases body with
    | update b g rs => rw [State.handleFor_update_of_follow hrole, if_neg hother, State.foreign_eq]
    | mark b g last => rw [State.handleFor_mark_of_follow hrole, if_neg hother, State.foreign_eq]
    | refreshReq | sweepBegin | sweepData | sweepEnd | claim | grant | deny | takeover | message => cases hposting
  · cases body with
    | claim | grant | deny | takeover =>
      simp only [State.handleFor, State.shareOnly, hrole]
      rfl
    | update | mark | refreshReq | sweepBegin | sweepData | sweepEnd | message => cases hownership
  · rw [← State.ownConflict_of_runs hruns]
    cases body with
    | update | mark => simp only [State.handleFor, State.ownerChecked, hrole]
    | claim | grant | deny | takeover => simp only [State.handleFor, State.shareOnly, hrole]
    | refreshReq | sweepBegin | sweepData | sweepEnd | message => rcases hbody with h | h <;> cases h

end Sys2Proof.Machine
end

section
/-!
Distances, what the follower's operations touch, and a window that leaves step, FOLLOWER or CLAIMING (R76, R77, R80, R82, R90,
R124, R137).
-/

namespace Sys2Proof.Machine

/-! ### Distances of sequence numbers and generations -/

section Distances
variable {x y : Word} {g h : Byte}

theorem seqDistance_eq (x y : Word) : seqDistance x y =
    if (x - y).toNat = 0 then .inOrder else if (x - y).toNat < 32768 then .ahead else .behind := by
  have hzero : x - y = 0 ↔ (x - y).toNat = 0 := BitVec.toNat_inj.symm
  simp only [seqDistance, hzero]

theorem seqDistance_inOrder_iff : seqDistance x y = .inOrder ↔ (x - y).toNat = 0 := by
  rw [seqDistance_eq]
  generalize (x - y).toNat = n
  split_ifs with hzero hahead <;> simp [hzero]

theorem seqDistance_ahead_iff : seqDistance x y = .ahead ↔ 1 ≤ (x - y).toNat ∧ (x - y).toNat ≤ 32767 := by
  rw [seqDistance_eq]
  generalize (x - y).toNat = n
  split_ifs with hzero hahead <;> simp <;> omega

theorem seqDistance_behind_iff : seqDistance x y = .behind ↔ 32768 ≤ (x - y).toNat := by
  rw [seqDistance_eq]
  generalize (x - y).toNat = n
  split_ifs with hzero hahead <;> simp <;> omega

theorem seqDistance_self (x : Word) : seqDistance x x = .inOrder := by
  simp [seqDistance]

theorem sub_eq_zero_iff {n : Nat} {x y : BitVec n} : x - y = 0 ↔ x = y := by
  constructor
  · intro h
    have := congrArg (· + y) h
    simpa using this
  · rintro rfl
    simp

theorem genCompare_eq (g h : Byte) : genCompare g h =
    if (g - h).toNat = 0 then .equal else if (g - h).toNat < 128 then .newer else .older := by
  have hzero : g - h = 0 ↔ (g - h).toNat = 0 := BitVec.toNat_inj.symm
  simp only [genCompare, hzero]

theorem genCompare_newer_iff : genCompare g h = .newer ↔ 1 ≤ (g - h).toNat ∧ (g - h).toNat ≤ 127 := by
  rw [genCompare_eq]
  generalize (g - h).toNat = n
  split_ifs with hzero hahead <;> simp <;> omega

theorem genCompare_equal_iff : genCompare g h = .equal ↔ g = h := by
  have hzero : g = h ↔ (g - h).toNat = 0 := sub_eq_zero_iff.symm.trans BitVec.toNat_inj.symm
  rw [genCompare_eq, hzero]
  generalize (g - h).toNat = n
  split_ifs with hequal hahead <;> simp [hequal]

theorem genCompare_older_iff : genCompare g h = .older ↔ 128 ≤ (g - h).toNat := by
  rw [genCompare_eq]
  generalize (g - h).toNat = n
  split_ifs with hzero hahead <;> simp <;> omega

end Distances

/-! ### What the follower's operations touch -/

/-- `t` differs from `s` in the frame on the line, in contexts and in windows at most. -/
def State.TouchesFollower (s t : State) : Prop :=
  ∃ (tx : Transmitter) (cs : Vector RefreshContext 2) (ws : Vector Window 16),
    t = { s with li := { s.li with tx := tx }, contexts := cs, windows := ws }

namespace State.TouchesFollower
variable {s t u : State}

theorem refl (s : State) : s.TouchesFollower s := ⟨s.li.tx, s.contexts, s.windows, rfl⟩

theorem trans (h : s.TouchesFollower t) (h' : t.TouchesFollower u) : s.TouchesFollower u := by
  obtain ⟨tx, cs, ws, rfl⟩ := h
  obtain ⟨tx', cs', ws', rfl⟩ := h'
  exact ⟨tx', cs', ws', rfl⟩

theorem modWin (h : s.TouchesFollower t) (w : WinId) (f : Window → Window) : s.TouchesFollower (t.modWin w f) :=
  h.trans ⟨t.li.tx, t.contexts, _, rfl⟩

theorem setCtx (h : s.TouchesFollower t) (i : Fin 2) (c : RefreshContext) : s.TouchesFollower (t.setCtx i c) :=
  h.trans ⟨t.li.tx, _, t.windows, rfl⟩

theorem freeContext (h : s.TouchesFollower t) (i : Fin 2) : s.TouchesFollower (t.freeContext i) :=
  h.trans ⟨t.li.tx, _, _, t.freeContext_eq i⟩

theorem releaseReservation (h : s.TouchesFollower t) (w : WinId) : s.TouchesFollower (t.releaseReservation w) := by
  obtain ⟨tx, cs, ws, hframe, -, -⟩ := t.releaseReservation_frame w
  exact h.trans ⟨tx, cs, ws, hframe⟩

theorem releaseBound (h : s.TouchesFollower t) (w : WinId) : s.TouchesFollower (t.releaseBound w) := by
  cases hbound : t.boundCtx w with
  | none => rwa [State.releaseBound_of_none hbound]
  | some i =>
    rw [State.releaseBound_of_bound hbound]
    exact h.freeContext i

theorem enterGap (h : s.TouchesFollower t) (w : WinId) : s.TouchesFollower (t.enterGap w) := h.trans (t.enterGap_frame w)

theorem enterUnsynced (h : s.TouchesFollower t) (w : WinId) : s.TouchesFollower (t.enterUnsynced w) :=
  h.trans (t.enterUnsynced_frame w)

theorem enterStale (h : s.TouchesFollower t) (w : WinId) : s.TouchesFollower (t.enterStale w) := h.trans (t.enterStale_frame w)

theorem modBinding (h : s.TouchesFollower t) (w : WinId) (f : Binding → Binding) : s.TouchesFollower (t.modBinding w f) := by
  unfold State.modBinding
  cases t.boundCtx w with
  | none => exact h
  | some i =>
    cases hctx : t.ctx i with
    | bound b => simpa only [hctx] using h.setCtx i _
    | free => simpa only [hctx] using h
    | reserved v => simpa only [hctx] using h

theorem newDelay (h : s.TouchesFollower t) : t.newDelay = s.newDelay := by
  obtain ⟨tx, cs, ws, rfl⟩ := h
  rfl

/-- An event after the follower's operations is the event the state before them records. -/
theorem recordEvent (h : s.TouchesFollower t) (hruns : s.li.line.runs) (f : EventFields) :
    t.recordEvent f = { t with en := s.eventOf f } := by
  obtain ⟨tx, cs, ws, ht⟩ := h
  have hen : t.en = s.en := by rw [ht]
  rw [State.recordEvent_of_kept hruns (by rw [ht]) (by rw [ht]) (by rw [ht]), hen, State.eventOf]

/-- The state behind the follower's operations and an event unit of its own. -/
theorem withEn (h : s.TouchesFollower t) (e : EventUnit) :
    { t with en := e } = { s with li := { s.li with tx := t.li.tx }, contexts := t.contexts, windows := t.windows, en := e } := by
  obtain ⟨tx, cs, ws, rfl⟩ := h
  rfl

theorem eq (h : s.TouchesFollower t) :
    t = { s with li := { s.li with tx := t.li.tx }, contexts := t.contexts, windows := t.windows } := by
  obtain ⟨tx, cs, ws, rfl⟩ := h
  rfl

end State.TouchesFollower

/-! ### A window out of step (R80, R82, R83, R94) -/

section OutOfStep
variable {s : State} {w : WinId} {src : Station}

theorem State.seqBreak_of_runs (hruns : s.li.line.runs) :
    s.seqBreak w src = { s.enterGap w with
      en := s.eventOf { cause := .seqGap, window := some w, station := some src, sequence := (s.win w).expected } } :=
  ((State.TouchesFollower.refl s).enterGap w).recordEvent hruns _

theorem State.seqBreak_win (v : WinId) : (s.seqBreak w src).win v = (s.enterGap w).win v := rfl

theorem State.behindResult_of_few {q : Word} (h : (s.win w).behind < 3) :
    s.behindResult w src q false =
      { s with windows := s.windows.set w { s.win w with behind := (s.win w).behind + 1 } } := by
  have hfew : (s.win w).behind + 1 < Config.behindLimit := by unfold Config.behindLimit; omega
  rw [State.behindResult, if_neg (by simp), if_pos hfew]
  rfl

theorem State.behindResult_of_last {q : Word} (hruns : s.li.line.runs) (h : (s.win w).behind = 3) :
    s.behindResult w src q false = { (s.modWin w fun x => { x with behind := 4 }).enterUnsynced w with
      en := s.eventOf { cause := .restartSuspected, window := some w, station := some src, sequence := some q } } := by
  rw [State.behindResult, if_neg (by simp), if_neg (by rw [h]; decide)]
  exact (((State.TouchesFollower.refl s).modWin w _).enterUnsynced w).recordEvent hruns _

theorem State.behindResult_of_last_win {q : Word} (h : (s.win w).behind = 3) :
    (s.behindResult w src q false).win w = { s.win w with
      sync := .unsynced, expected := none, gapOrigin := none, behind := 4, contextWait := false, wait := s.newDelay } := by
  rw [State.behindResult, if_neg (by simp), if_neg (by rw [h]; decide), State.win_recordEvent, State.enterUnsynced_win,
    State.win_modWin]
  rfl

theorem State.behindResult_of_adopted {q : Word} : s.behindResult w src q true = s.seqBreak w src := by
  rw [State.behindResult, if_pos rfl]

theorem State.releaseBound_win (v : WinId) :
    (s.releaseBound w).win v =
      if (s.win v).contextWait = true ∧ s.boundCtx w ≠ none then
        { s.win v with contextWait := false, wait := s.newDelay } else s.win v := by
  cases h : s.boundCtx w with
  | none => rw [State.releaseBound_of_none h, if_neg (by simp)]
  | some i =>
    rw [State.releaseBound_of_bound h, State.freeContext_win]
    by_cases hwaits : (s.win v).contextWait = true
    · rw [if_pos hwaits, if_pos ⟨hwaits, by simp⟩]
      rfl
    · rw [if_neg hwaits, if_neg fun hand => hwaits hand.1]

theorem State.releaseBound_ctx (j : Fin 2) :
    (s.releaseBound w).ctx j = if s.boundCtx w = some j then .free else s.ctx j := by
  cases h : s.boundCtx w with
  | none => rw [State.releaseBound_of_none h, if_neg (by simp)]
  | some i =>
    rw [State.releaseBound_of_bound h, State.freeContext_ctx]
    simp only [Option.some.injEq, eq_comm]

/-- SIZE_MISMATCH: the event, and the window's contexts freed as it goes to STALE. -/
theorem State.sizeMismatch_of_runs {q : Option Word} (hruns : s.li.line.runs) :
    s.sizeMismatch w src q = { (s.releaseBound w).enterStale w with
      en := s.eventOf { cause := .sizeMismatch, window := some w, station := some src, sequence := q } } := by
  rw [State.sizeMismatch, State.recordEvent_of_runs hruns]
  generalize s.eventOf { cause := .sizeMismatch, window := some w, station := some src, sequence := q } = e
  have hrelease : ({ s with en := e } : State).releaseBound w = { s.releaseBound w with en := e } := by
    cases h : s.boundCtx w with
    | none => rw [State.releaseBound_of_none h, State.releaseBound_of_none (s := { s with en := e }) h]
    | some i =>
      rw [State.releaseBound_of_bound h, State.releaseBound_of_bound (s := { s with en := e }) h, State.freeContext_eq,
        State.freeContext_eq]
      rfl
  rw [hrelease]
  generalize s.releaseBound w = t
  have hreserved (t : State) : ({ t with en := e } : State).releaseReservation w = { t.releaseReservation w with en := e } := by
    cases h : t.reservedCtx w with
    | none => rw [State.releaseReservation_of_none h, State.releaseReservation_of_none (s := { t with en := e }) h]
    | some i =>
      have h' : ({ t with en := e } : State).reservedCtx w = some i := h
      simp only [State.releaseReservation, h, h', State.freeContext_eq]
      rfl
  exact hreserved (t.modWin w fun x => { x with sync := .stale, gapOrigin := none, wait := .stopped, contextWait := false })

theorem State.sizeMismatch_touches {q : Option Word} (hruns : s.li.line.runs) :
    ∃ t : State, s.TouchesFollower t ∧ s.sizeMismatch w src q = { t with
      en := s.eventOf { cause := .sizeMismatch, window := some w, station := some src, sequence := q } } :=
  ⟨_, ((State.TouchesFollower.refl s).releaseBound w).enterStale w, State.sizeMismatch_of_runs hruns⟩

theorem State.sizeMismatch_win (q : Option Word) : (s.sizeMismatch w src q).win w = (s.win w).stale := by
  rw [State.sizeMismatch, State.enterStale_win, State.releaseBound_win, State.win_recordEvent]
  split <;> rfl

theorem State.sizeMismatch_ctx {q : Option Word} {i : Fin 2} (hbound : s.boundCtx w = some i) :
    (s.sizeMismatch w src q).ctx i = .free := by
  rw [State.sizeMismatch, State.enterStale, State.releaseReservation_ctx]
  split
  · rfl
  · exact (State.releaseBound_ctx (s := s.recordEvent _) i).trans (if_pos hbound)

end OutOfStep

end Sys2Proof.Machine
end

section
/-!
Records and marks as their handling takes them: by their sequence in SYNCED, into the deferred list in REFRESHING, and dropped
elsewhere (R76, R79, R80 to R85, R119, R120).
-/

namespace Sys2Proof.Machine

/-! ### Records in turn -/

/-- The window drops records and marks: it is not followed, or in UNSYNCED, GAP or STALE (R76, R79). -/
def State.DropsRecords (s : State) (w : WinId) : Prop :=
  ¬s.follows w ∨ (s.win w).sync = .unsynced ∨ (s.win w).sync = .gap ∨ (s.win w).sync = .stale

section Records
variable {s : State} {w : WinId} {src : Station} {r : PostRecord} {e : Word} {applied adopted : Bool}

theorem Window.not_followed_iff : (!(s.win w).followed) = true ↔ ¬s.follows w := by
  rw [Bool.not_eq_true', ← Window.followed_iff, Bool.not_eq_true]

theorem State.takeRecords_nil : s.takeRecords w src applied adopted [] = if applied then s.noted w else s := by
  rw [State.takeRecords, State.updateNote_eq_noted]

/-- A window that drops records takes none, and gives the note for those applied before. -/
theorem State.takeRecords_of_drops (h : s.DropsRecords w) (rs : List PostRecord) :
    s.takeRecords w src applied adopted rs = if applied then s.noted w else s := by
  induction rs with
  | nil => exact State.takeRecords_nil
  | cons r rest ih =>
    rw [State.takeRecords]
    by_cases hfollowed : (!(s.win w).followed) = true
    · rw [if_pos hfollowed, ih]
    · rw [if_neg hfollowed]
      rcases h with hnot | hsync | hsync | hsync
      · exact absurd (Window.not_followed_iff.2 hnot) hfollowed
      all_goals simp only [hsync, ih]

theorem State.takeRecords_of_refreshing (hfollows : s.follows w) (hsync : (s.win w).sync = .refreshing)
    (rest : List PostRecord) : s.takeRecords w src applied adopted (r :: rest) =
      (s.contextRecord w src r).takeRecords w src applied adopted rest := by
  rw [State.takeRecords, if_neg (mt Window.not_followed_iff.1 (not_not.2 hfollows))]
  simp only [hsync]

section Synced
variable (hfollows : s.follows w) (hsync : (s.win w).sync = .synced) (hexpected : (s.win w).expected = some e)
include hfollows hsync hexpected

theorem State.takeRecords_of_inOrder (hseq : r.seq = e) (hfits : r.offset.toNat + r.data.length ≤ (s.win w).size)
    (rest : List PostRecord) : s.takeRecords w src applied adopted (r :: rest) =
      (s.setWork (some (.record w src r rest applied adopted))).requestGrant .writer := by
  rw [State.takeRecords, if_neg (mt Window.not_followed_iff.1 (not_not.2 hfollows))]
  simp only [hsync, hexpected, hseq, seqDistance_self, if_neg (Nat.not_lt.2 hfits)]

theorem State.takeRecords_of_outside (hseq : r.seq = e) (hout : (s.win w).size < r.offset.toNat + r.data.length)
    (rest : List PostRecord) : s.takeRecords w src applied adopted (r :: rest) =
      (s.sizeMismatch w src (some r.seq)).takeRecords w src applied adopted rest := by
  rw [State.takeRecords, if_neg (mt Window.not_followed_iff.1 (not_not.2 hfollows))]
  simp only [hsync, hexpected, hseq, seqDistance_self, if_pos hout]

theorem State.takeRecords_of_ahead (hahead : 1 ≤ (r.seq - e).toNat ∧ (r.seq - e).toNat ≤ 32767) (rest : List PostRecord) :
    s.takeRecords w src applied adopted (r :: rest) = (s.seqBreak w src).takeRecords w src applied adopted rest := by
  rw [State.takeRecords, if_neg (mt Window.not_followed_iff.1 (not_not.2 hfollows))]
  simp only [hsync, hexpected, seqDistance_ahead_iff.2 hahead]

theorem State.takeRecords_of_behind (hbehind : 32768 ≤ (r.seq - e).toNat) (rest : List PostRecord) :
    s.takeRecords w src applied adopted (r :: rest) =
      (s.behindResult w src r.seq adopted).takeRecords w src applied adopted rest := by
  rw [State.takeRecords, if_neg (mt Window.not_followed_iff.1 (not_not.2 hfollows))]
  simp only [hsync, hexpected, seqDistance_behind_iff.2 hbehind]

/-- A record that takes the window out of step: the rest of its frame is dropped. -/
theorem State.takeRecords_of_break
    (h : (r.seq = e ∧ (s.win w).size < r.offset.toNat + r.data.length) ∨
      (1 ≤ (r.seq - e).toNat ∧ (r.seq - e).toNat ≤ 32767) ∨
      (32768 ≤ (r.seq - e).toNat ∧ (adopted = true ∨ (s.win w).behind = 3))) (rest : List PostRecord) :
    s.takeRecords w src applied adopted (r :: rest) =
      if applied then (s.takeRecords w src false adopted [r]).noted w else s.takeRecords w src false adopted [r] := by
  have hleaves {u : State} (hdrops : u.DropsRecords w) (hstep : ∀ (applied : Bool) (rest : List PostRecord),
      s.takeRecords w src applied adopted (r :: rest) = u.takeRecords w src applied adopted rest) :
      s.takeRecords w src applied adopted (r :: rest) =
        if applied then (s.takeRecords w src false adopted [r]).noted w else s.takeRecords w src false adopted [r] := by
    rw [hstep false [], hstep applied rest, State.takeRecords_of_drops hdrops, State.takeRecords_of_drops hdrops]
    simp only [Bool.false_eq_true, if_false]
  have hgap : (s.seqBreak w src).DropsRecords w := .inr (.inr (.inl (by rw [State.seqBreak_win, State.enterGap_win])))
  rcases h with ⟨hseq, hout⟩ | hahead | ⟨hbehind, hadopted | hlast⟩
  · exact hleaves (.inr (.inr (.inr (by rw [State.sizeMismatch_win]; rfl))))
      fun applied rest => State.takeRecords_of_outside hfollows hsync hexpected hseq hout rest
  · exact hleaves hgap fun applied rest => State.takeRecords_of_ahead hfollows hsync hexpected hahead rest
  · subst hadopted
    refine hleaves hgap fun applied rest => ?_
    rw [State.takeRecords_of_behind hfollows hsync hexpected hbehind, State.behindResult_of_adopted]
  · cases hadopted : adopted with
    | true =>
      subst hadopted
      refine hleaves hgap fun applied rest => ?_
      rw [State.takeRecords_of_behind hfollows hsync hexpected hbehind, State.behindResult_of_adopted]
    | false =>
      subst hadopted
      exact hleaves (.inr (.inl (by rw [State.behindResult_of_last_win hlast])))
        fun applied rest => State.takeRecords_of_behind hfollows hsync hexpected hbehind rest

/-! ### Marks -/

theorem State.takeMark_of_inStep {last : Word} (h : (last - (e - 1)).toNat = 0) : s.takeMark w src last adopted = s := by
  rw [State.takeMark, if_neg (mt Window.not_followed_iff.1 (not_not.2 hfollows))]
  simp only [hsync, hexpected, seqDistance_inOrder_iff.2 h]

theorem State.takeMark_of_ahead {last : Word} (h : 1 ≤ (last - (e - 1)).toNat ∧ (last - (e - 1)).toNat ≤ 32767) :
    s.takeMark w src last adopted = s.seqBreak w src := by
  rw [State.takeMark, if_neg (mt Window.not_followed_iff.1 (not_not.2 hfollows))]
  simp only [hsync, hexpected, seqDistance_ahead_iff.2 h]

theorem State.takeMark_of_behind {last : Word} (h : 32768 ≤ (last - (e - 1)).toNat) :
    s.takeMark w src last adopted = s.behindResult w src last adopted := by
  rw [State.takeMark, if_neg (mt Window.not_followed_iff.1 (not_not.2 hfollows))]
  simp only [hsync, hexpected, seqDistance_behind_iff.2 h]

end Synced

theorem State.takeMark_of_drops {last : Word} (h : ¬s.follows w ∨ (s.win w).sync ≠ .synced) :
    s.takeMark w src last adopted = s := by
  rw [State.takeMark]
  by_cases hfollowed : (!(s.win w).followed) = true
  · rw [if_pos hfollowed]
  · rw [if_neg hfollowed]
    have hsync : (s.win w).sync ≠ .synced := h.resolve_left fun hnot => hfollowed (Window.not_followed_iff.2 hnot)
    cases hs : (s.win w).sync with
    | synced => exact absurd hs hsync
    | unsynced | gap | refreshing | stale => rfl

end Records

/-- Settles O37. -/
theorem recordsAndMarksAreJudgedBySequence : Obligations.RecordsAndMarksAreJudgedBySequence := by
  refine ⟨fun s w src r e hfollows hsync hexpected hruns => ⟨fun hseq hfits applied adopted rest => ?_,
      fun hseq hout adopted rest => ?_, fun hlow hhigh adopted => ?_, fun hbehind hfew => ?_, fun hbehind hlast => ?_,
      fun hbehind => ?_, fun hbehind hfew applied rest => ?_, fun adopted hbreak applied rest => ?_⟩,
    fun s w src last e hfollows hsync hexpected hruns => ⟨fun adopted hzero => ?_, fun adopted hdistance => ?_,
      fun hbehind hfew => ?_, fun hbehind hlast => ?_⟩,
    fun s w src applied adopted => State.takeRecords_nil,
    fun s w src last rs adopted => ⟨fun hdrops => ?_, fun hdrops => State.takeMark_of_drops hdrops⟩⟩
  · rw [State.takeRecords_of_inOrder hfollows hsync hexpected hseq hfits]
    rfl
  · rw [State.takeRecords_of_outside hfollows hsync hexpected hseq hout,
      State.takeRecords_of_drops (.inr (.inr (.inr (by rw [State.sizeMismatch_win]; rfl))))]
    simp only [Bool.false_eq_true, if_false]
    obtain ⟨t, htouches, hmismatch⟩ := State.sizeMismatch_touches (w := w) (src := src) (q := some r.seq) hruns
    refine ⟨by rw [State.sizeMismatch_win]; rfl, ?_, by rw [hmismatch]⟩
    rw [hmismatch, htouches.eq]
  · rw [State.takeRecords_of_ahead hfollows hsync hexpected ⟨hlow, hhigh⟩, State.takeRecords_nil]
    simp only [Bool.false_eq_true, if_false]
    refine ⟨by rw [State.seqBreak_win, State.enterGap_win], ?_, by rw [State.seqBreak_of_runs hruns, hexpected]⟩
    rw [State.seqBreak_win, State.enterGap_win]
    exact hexpected
  · rw [State.takeRecords_of_behind hfollows hsync hexpected hbehind, State.takeRecords_nil, State.behindResult_of_few hfew]
    rfl
  · rw [State.takeRecords_of_behind hfollows hsync hexpected hbehind, State.takeRecords_nil]
    simp only [Bool.false_eq_true, if_false]
    refine ⟨?_, ?_, by rw [State.behindResult_of_last hruns hlast]⟩ <;> rw [State.behindResult_of_last_win hlast]
  · rw [State.takeRecords_of_behind hfollows hsync hexpected hbehind, State.takeRecords_nil, State.behindResult_of_adopted]
    simp only [Bool.false_eq_true, if_false]
    exact ⟨by rw [State.seqBreak_win, State.enterGap_win], by rw [State.seqBreak_of_runs hruns, hexpected]⟩
  · rw [State.takeRecords_of_behind hfollows hsync hexpected hbehind, State.behindResult_of_few hfew]
  · exact State.takeRecords_of_break hfollows hsync hexpected hbreak rest
  · exact State.takeMark_of_inStep hfollows hsync hexpected hzero
  · have hbreak : s.takeMark w src last adopted = s.seqBreak w src := by
      rcases hdistance with hahead | ⟨hbehind, hadopted⟩
      · exact State.takeMark_of_ahead hfollows hsync hexpected hahead
      · rw [State.takeMark_of_behind hfollows hsync hexpected hbehind, hadopted, State.behindResult_of_adopted]
    rw [hbreak]
    exact ⟨by rw [State.seqBreak_win, State.enterGap_win]; rfl, by rw [State.seqBreak_of_runs hruns, hexpected]⟩
  · rw [State.takeMark_of_behind hfollows hsync hexpected hbehind, State.behindResult_of_few hfew]
  · rw [State.takeMark_of_behind hfollows hsync hexpected hbehind]
    exact ⟨State.behindResult_of_last_win hlast, by rw [State.behindResult_of_last hruns hlast]⟩
  · rw [State.takeRecords_of_drops hdrops]
    rfl

/-! ### Records deferred during a refresh (R119, R120) -/

section Deferral
variable {s : State} {w : WinId} {src : Station} {r : PostRecord} {i : Fin 2} {b : Binding} {a : Attempt}

theorem Attempt.covers_iff : a.covers r.seq = true ↔ ¬(r.seq - (a.snapshot + 1)).toNat < 32768 := by
  rw [Attempt.covers, decide_eq_true_eq, seqDistance_behind_iff, Nat.not_lt]

theorem State.takeRecords_one_of_refreshing {adopted : Bool} (hfollows : s.follows w) (hsync : (s.win w).sync = .refreshing) :
    s.takeRecords w src false adopted [r] = s.contextRecord w src r := by
  rw [State.takeRecords_of_refreshing hfollows hsync, State.takeRecords_nil]
  rfl

variable (hbound : s.boundCtx w = some i) (hctx : s.ctx i = .bound b)
include hbound hctx

theorem State.contextRecord_of_past (hattempt : b.attempt = some a)
    (hpast : src ≠ a.owner ∨ ¬(r.seq - (a.snapshot + 1)).toNat < 32768) : s.contextRecord w src r = s := by
  simp only [State.contextRecord, State.bindingOf_of_bound hbound hctx, hattempt]
  exact if_pos (hpast.imp_right Attempt.covers_iff.2)

theorem State.contextRecord_of_after (hattempt : b.attempt = some a) (howner : src = a.owner)
    (hafter : (r.seq - (a.snapshot + 1)).toNat < 32768) : s.contextRecord w src r = s.deferRecord w src b a r := by
  simp only [State.contextRecord, State.bindingOf_of_bound hbound hctx, hattempt]
  exact if_neg (not_or.2 ⟨not_not.2 howner, fun hcovers => Attempt.covers_iff.1 hcovers hafter⟩)

theorem State.contextRecord_of_not_begun (hattempt : b.attempt = none) : s.contextRecord w src r = s := by
  simp only [State.contextRecord, State.bindingOf_of_bound hbound hctx, hattempt]

/-- An event behind a change of the window's binding. -/
theorem State.recordEvent_modBinding (hruns : s.li.line.runs) (g : Binding → Binding) (f : EventFields) :
    (s.modBinding w g).recordEvent f =
      { s with contexts := s.contexts.set i (.bound (g b)), en := s.eventOf f } := by
  rw [State.modBinding_of_bound hbound hctx]
  exact State.recordEvent_of_runs (s := { s with contexts := s.contexts.set i (.bound (g b)) }) hruns f

end Deferral

/-- Settles O38. -/
theorem recordsDuringRefreshAreDeferred : Obligations.RecordsDuringRefreshAreDeferred := by
  intro s w src adopted i b hfollows hsync hbound hctx hruns
  refine ⟨fun r rest => ?_, fun r => ?_⟩
  · rw [State.takeRecords_of_refreshing hfollows hsync, State.takeRecords_one_of_refreshing hfollows hsync]
  rw [State.takeRecords_one_of_refreshing hfollows hsync]
  refine ⟨State.contextRecord_of_not_begun hbound hctx, fun a hattempt => ?_⟩
  intro next bytes after
  refine ⟨fun hdropped => ?_, fun howner hafter hoverflow hgap => ?_⟩
  · by_cases hpast : src ≠ a.owner ∨ ¬after
    · exact State.contextRecord_of_past hbound hctx hattempt hpast
    · obtain ⟨howner, hafter⟩ := not_or.1 hpast
      have hlost : (b.overflow || b.deferredGap) = true := by
        rw [Bool.or_eq_true]
        rcases hdropped with h | h | h | h
        · exact absurd (.inl h) hpast
        · exact absurd (.inr h) hpast
        · exact .inl h
        · exact .inr h
      rw [State.contextRecord_of_after hbound hctx hattempt (not_not.1 howner) (not_not.1 hafter), State.deferRecord,
        if_pos hlost]
  · rw [State.contextRecord_of_after hbound hctx hattempt howner hafter, State.deferRecord,
      if_neg (by simp [hoverflow, hgap])]
    refine ⟨fun hout => ?_, fun hfits => ?_⟩
    · rw [if_pos hout]
      obtain ⟨t, htouches, hmismatch⟩ := State.sizeMismatch_touches (w := w) (src := src) (q := some r.seq) hruns
      refine ⟨State.sizeMismatch_win _, State.sizeMismatch_ctx hbound, ?_, ?_, by rw [hmismatch]⟩ <;>
        rw [hmismatch, htouches.eq]
    · have hnext (h : r.seq = next) : ¬r.seq ≠ a.nextDeferred b.deferred := not_not.2 h
      rw [if_neg (Nat.not_lt.2 hfits)]
      refine ⟨fun hseq => ?_, fun hseq => ⟨fun hfull => ?_, fun hroom hbytes => ?_⟩⟩
      · rw [if_pos (by exact hseq), State.recordEvent_modBinding hbound hctx hruns]
        rfl
      · rw [if_neg (hnext hseq), if_pos (by exact hfull), State.recordEvent_modBinding hbound hctx hruns]
      · have hnotFull : ¬(b.deferred.length = Config.deferredRecords ∨
            Config.deferredBytes < deferredLength b.deferred + r.data.length) :=
          not_or.2 ⟨Nat.ne_of_lt hroom, Nat.not_lt.2 hbytes⟩
        rw [if_neg (hnext hseq), if_neg hnotFull, State.modBinding_of_bound hbound hctx]

end Sys2Proof.Machine
end

section
/-!
A window that leaves FOLLOWER and CLAIMING, takeovers, and the end of a refresh attempt (R90, R93, R122, R123, R124, R137, R144,
R149).
-/

namespace Sys2Proof.Machine

/-! ### Leaving FOLLOWER (R90, R124) -/

/-- The window's wait timer and context wait end. -/
def Window.unwaiting (x : Window) : Window := { x with wait := .stopped, contextWait := false }

section Leave
variable {s : State} {w : WinId}

theorem State.leaveFollowed_of_unbound (h : s.boundCtx w = none) :
    s.leaveFollowed w = (s.modWin w Window.unwaiting).releaseReservation w := by
  have hbound : ((s.modWin w Window.unwaiting).releaseReservation w).boundCtx w = none :=
    (State.releaseReservation_boundCtx _ w w).trans h
  unfold Window.unwaiting at hbound
  simp only [State.leaveFollowed, hbound]
  rfl

theorem State.leaveFollowed_of_bound {i : Fin 2} (h : s.boundCtx w = some i) :
    s.leaveFollowed w = (((s.modWin w Window.unwaiting).releaseReservation w).modWin w fun x =>
      { x with sync := .gap, gapOrigin := some .here }).freeContext i := by
  have hbound : ((s.modWin w Window.unwaiting).releaseReservation w).boundCtx w = some i :=
    (State.releaseReservation_boundCtx _ w w).trans h
  unfold Window.unwaiting at hbound
  simp only [State.leaveFollowed, hbound]
  rfl

theorem State.win_unwaiting_released : ((s.modWin w Window.unwaiting).releaseReservation w).win w = (s.win w).unwaiting := by
  rw [State.releaseReservation_win w (by rw [State.win_modWin]; rfl), State.win_modWin]

theorem State.win_unwaiting_released_of_ne {v : WinId} (hv : v ≠ w) :
    ((s.modWin w Window.unwaiting).releaseReservation w).win v =
      if (s.win v).contextWait = true ∧ s.reservedCtx w ≠ none then
        { s.win v with contextWait := false, wait := s.newDelay } else s.win v := by
  rw [State.releaseReservation_win_eq, State.win_modWin_of_ne _ _ hv]
  rfl

theorem State.leaveFollowed_win :
    (s.leaveFollowed w).win w = { s.win w with
      wait := .stopped, contextWait := false,
      sync := if s.boundCtx w = none then (s.win w).sync else .gap,
      gapOrigin := if s.boundCtx w = none then (s.win w).gapOrigin else some .here } := by
  cases h : s.boundCtx w with
  | none =>
    rw [State.leaveFollowed_of_unbound h, State.win_unwaiting_released]
    rfl
  | some i =>
    rw [State.leaveFollowed_of_bound h, State.freeContext_win, State.win_modWin, State.win_unwaiting_released]
    rfl

theorem State.leaveFollowed_win_of_ne {v : WinId} (hv : v ≠ w) :
    (s.leaveFollowed w).win v =
      if (s.win v).contextWait = true ∧ (s.reservedCtx w ≠ none ∨ s.boundCtx w ≠ none) then
        { s.win v with contextWait := false, wait := s.newDelay } else s.win v := by
  cases h : s.boundCtx w with
  | none =>
    rw [State.leaveFollowed_of_unbound h, State.win_unwaiting_released_of_ne hv]
    simp only [ne_eq, not_true_eq_false, or_false]
  | some i =>
    have hdelay : ((s.modWin w Window.unwaiting).releaseReservation w).newDelay = s.newDelay :=
      (((State.TouchesFollower.refl s).modWin w _).releaseReservation w).newDelay
    have hreleased := State.win_unwaiting_released_of_ne (s := s) (w := w) hv
    rw [State.leaveFollowed_of_bound h, State.freeContext_win, State.win_modWin_of_ne _ _ hv]
    by_cases hwaits : (s.win v).contextWait = true
    · by_cases hreserved : s.reservedCtx w ≠ none
      · rw [if_pos ⟨hwaits, hreserved⟩] at hreleased
        rw [hreleased, if_neg (by simp), if_pos ⟨hwaits, .inl hreserved⟩]
      · rw [if_neg fun hand => hreserved hand.2] at hreleased
        rw [hreleased, if_pos hwaits, if_pos ⟨hwaits, .inr (by simp)⟩, ← hdelay]
        rfl
    · rw [if_neg fun hand => hwaits hand.1] at hreleased
      rw [hreleased, if_neg hwaits, if_neg fun hand => hwaits hand.1]

theorem State.leaveFollowed_ctx (j : Fin 2) :
    (s.leaveFollowed w).ctx j = if s.reservedCtx w = some j ∨ s.boundCtx w = some j then .free else s.ctx j := by
  have hreleased : ((s.modWin w Window.unwaiting).releaseReservation w).ctx j =
      if s.reservedCtx w = some j then .free else s.ctx j := State.releaseReservation_ctx _ w j
  cases h : s.boundCtx w with
  | none =>
    rw [State.leaveFollowed_of_unbound h, hreleased]
    simp only [reduceCtorEq, or_false]
  | some i =>
    rw [State.leaveFollowed_of_bound h, State.freeContext_ctx]
    by_cases hj : j = i
    · rw [if_pos hj, if_pos (.inr (by rw [hj]))]
    · have hi : (some i : Option (Fin 2)) ≠ some j := fun he => hj (Option.some.inj he).symm
      simp only [if_neg hj, hi, or_false]
      exact hreleased

theorem State.leaveFollowed_touches : s.TouchesFollower (s.leaveFollowed w) := by
  have hreleased := ((State.TouchesFollower.refl s).modWin w Window.unwaiting).releaseReservation w
  cases h : s.boundCtx w with
  | none => rwa [State.leaveFollowed_of_unbound h]
  | some i =>
    rw [State.leaveFollowed_of_bound h]
    exact (hreleased.modWin w _).freeContext i

theorem State.leaveFollowed_withdraws :
    s.withdraws (s.leaveFollowed w) fun src => src = .refreshReq w ∧ s.reservedCtx w ≠ none := by
  have hreleased : s.withdraws ((s.modWin w Window.unwaiting).releaseReservation w)
      fun src => src = .refreshReq w ∧ s.reservedCtx w ≠ none := State.releaseReservation_withdraws (s.modWin w Window.unwaiting) w
  cases h : s.boundCtx w with
  | none => rwa [State.leaveFollowed_of_unbound h]
  | some i =>
    rw [State.leaveFollowed_of_bound h, State.freeContext_eq]
    exact State.withdraws_tx_congr hreleased rfl rfl

/-! ### Leaving CLAIMING (R137) -/

theorem State.exitClaiming_of_claiming (h : (s.win w).ownership = .claiming) :
    s.exitClaiming w = { s with
      li := { s.li with tx := s.li.tx.mapOnLine fun f => if f.source = .claim w then f.withdraw else f },
      windows := s.windows.set w { s.win w with claimAttempts := 0, claimTimer := .stopped },
      ownerDue := s.ownerDue.filter fun x => decide (x ≠ .claim w) } := by
  rw [State.exitClaiming, if_pos h, State.withdrawClaim_eq]
  rfl

theorem State.exitClaiming_windows (h : (s.win w).ownership = .claiming) :
    (s.exitClaiming w).windows = (s.modWin w fun x => { x with claimAttempts := 0, claimTimer := .stopped }).windows := by
  rw [State.exitClaiming_of_claiming h]
  rfl

theorem State.exitClaiming_of_not_claiming (h : (s.win w).ownership ≠ .claiming) : s.exitClaiming w = s := by
  rw [State.exitClaiming, if_neg h]

theorem State.exitClaiming_win :
    (s.exitClaiming w).win w = { s.win w with
      claimAttempts := if (s.win w).ownership = .claiming then 0 else (s.win w).claimAttempts,
      claimTimer := if (s.win w).ownership = .claiming then .stopped else (s.win w).claimTimer } := by
  by_cases h : (s.win w).ownership = .claiming
  · simp only [if_pos h]
    rw [State.win_eq_of_windows (State.exitClaiming_windows h), State.win_modWin]
  · rw [State.exitClaiming_of_not_claiming h]
    simp only [if_neg h]

theorem State.exitClaiming_win_of_ne {v : WinId} (hv : v ≠ w) : (s.exitClaiming w).win v = s.win v := by
  by_cases h : (s.win w).ownership = .claiming
  · rw [State.win_eq_of_windows (State.exitClaiming_windows h), State.win_modWin_of_ne s _ hv]
  · rw [State.exitClaiming_of_not_claiming h]

theorem State.exitClaiming_ownerDue :
    (s.exitClaiming w).ownerDue =
      if (s.win w).ownership = .claiming then s.ownerDue.filter (fun x => decide (x ≠ .claim w)) else s.ownerDue := by
  by_cases h : (s.win w).ownership = .claiming
  · rw [State.exitClaiming_of_claiming h, if_pos h]
  · rw [State.exitClaiming_of_not_claiming h, if_neg h]

theorem State.exitClaiming_withdraws :
    s.withdraws (s.exitClaiming w) fun src => src = .claim w ∧ (s.win w).ownership = .claiming := by
  by_cases h : (s.win w).ownership = .claiming
  · refine State.withdraws_of_mapOnLine (q := fun src => decide (src = .claim w)) (by simp [h]) ?_
    rw [State.exitClaiming_of_claiming h]
    simp only [decide_eq_true_eq]
  · exact State.withdraws_refl (by rw [State.exitClaiming_of_not_claiming h]) fun src hand => h hand.2

theorem State.exitClaiming_contexts : (s.exitClaiming w).contexts = s.contexts := by
  by_cases h : (s.win w).ownership = .claiming
  · rw [State.exitClaiming_of_claiming h]
  · rw [State.exitClaiming_of_not_claiming h]

end Leave

end Sys2Proof.Machine
end

section
/-!
Takeovers and the end of a refresh attempt, and the expiries that bring them about (R93, R118, R122, R123, R136, R149).
-/

namespace Sys2Proof.Machine

/-! ### What the changes of ownership touch -/

/-- `t` differs from `s` in what the follower's operations touch and in the due frames at most. -/
def State.TouchesOwnership (s t : State) : Prop :=
  ∃ (u : State) (due : List OwnerFrame), s.TouchesFollower u ∧ t = { u with ownerDue := due }

namespace State.TouchesOwnership
variable {s t u : State}

theorem of_follower (h : s.TouchesFollower t) : s.TouchesOwnership t := ⟨t, t.ownerDue, h, rfl⟩

theorem trans (h : s.TouchesOwnership t) (h' : t.TouchesOwnership u) : s.TouchesOwnership u := by
  obtain ⟨v, due, hv, rfl⟩ := h
  obtain ⟨v', due', ⟨tx, cs, ws, rfl⟩, rfl⟩ := h'
  exact ⟨_, due', hv.trans ⟨tx, cs, ws, rfl⟩, rfl⟩

theorem follow (h : s.TouchesOwnership t) (h' : t.TouchesFollower u) : s.TouchesOwnership u := h.trans (of_follower h')

theorem modWin (h : s.TouchesOwnership t) (w : WinId) (f : Window → Window) : s.TouchesOwnership (t.modWin w f) :=
  h.follow ((State.TouchesFollower.refl t).modWin w f)

theorem withDue (h : s.TouchesOwnership t) (due : List OwnerFrame) : s.TouchesOwnership { t with ownerDue := due } :=
  h.trans ⟨t, due, State.TouchesFollower.refl t, rfl⟩

theorem exitClaiming (h : s.TouchesOwnership t) (w : WinId) : s.TouchesOwnership (t.exitClaiming w) := by
  by_cases hclaiming : (t.win w).ownership = .claiming
  · rw [State.exitClaiming_of_claiming hclaiming]
    exact h.trans ⟨_, _, ⟨_, t.contexts, _, rfl⟩, rfl⟩
  · rwa [State.exitClaiming_of_not_claiming hclaiming]

theorem leaveFollowed (h : s.TouchesOwnership t) (w : WinId) : s.TouchesOwnership (t.leaveFollowed w) :=
  h.follow State.leaveFollowed_touches

theorem becomeOwner (h : s.TouchesOwnership t) (w : WinId) (g : Byte) (q : Word) : s.TouchesOwnership (t.becomeOwner w g q) := by
  unfold State.becomeOwner
  exact ((h.exitClaiming w).leaveFollowed w).modWin w _

theorem eq (h : s.TouchesOwnership t) :
    t = { s with li := { s.li with tx := t.li.tx }, contexts := t.contexts, windows := t.windows, ownerDue := t.ownerDue } := by
  obtain ⟨u, due, ⟨tx, cs, ws, rfl⟩, rfl⟩ := h
  rfl

theorem newDelay (h : s.TouchesOwnership t) : t.newDelay = s.newDelay := by
  obtain ⟨u, due, ⟨tx, cs, ws, rfl⟩, rfl⟩ := h
  rfl

theorem recordEvent (h : s.TouchesOwnership t) (hruns : s.li.line.runs) (f : EventFields) :
    t.recordEvent f = { t with en := s.eventOf f } := by
  have ht := h.eq
  have hen : t.en = s.en := by rw [ht]
  rw [State.recordEvent_of_kept hruns (by rw [ht]) (by rw [ht]) (by rw [ht]), hen, State.eventOf]

end State.TouchesOwnership

/-! ### Entry to OWNER and takeovers (R144, R149) -/

section Takeover
variable {s : State} {w : WinId} {g : Byte} {q : Word}

theorem State.becomeOwner_touches : s.TouchesOwnership (s.becomeOwner w g q) :=
  (State.TouchesOwnership.of_follower (State.TouchesFollower.refl s)).becomeOwner w g q

theorem State.findCtx_congr {t : State} (h : t.contexts = s.contexts) (p : RefreshContext → Bool) : t.findCtx p = s.findCtx p := by
  have hctx (i : Fin 2) : t.ctx i = s.ctx i := by rw [State.ctx, h, ← State.ctx]
  rw [State.findCtx, State.findCtx, hctx, hctx]

theorem State.exitClaiming_boundCtx (v : WinId) : (s.exitClaiming w).boundCtx v = s.boundCtx v :=
  State.findCtx_congr State.exitClaiming_contexts _

theorem State.exitClaiming_reservedCtx (v : WinId) : (s.exitClaiming w).reservedCtx v = s.reservedCtx v :=
  State.findCtx_congr State.exitClaiming_contexts _

/-- The window out of FOLLOWER and CLAIMING, its ownership not yet changed. -/
def State.unfollowed (s : State) (w : WinId) : Window :=
  { s.win w with
    wait := .stopped, contextWait := false,
    claimAttempts := if (s.win w).ownership = .claiming then 0 else (s.win w).claimAttempts,
    claimTimer := if (s.win w).ownership = .claiming then .stopped else (s.win w).claimTimer,
    sync := if s.boundCtx w = none then (s.win w).sync else .gap,
    gapOrigin := if s.boundCtx w = none then (s.win w).gapOrigin else some .here }

theorem State.win_exitClaiming_leaveFollowed : ((s.exitClaiming w).leaveFollowed w).win w = s.unfollowed w := by
  rw [State.leaveFollowed_win, State.exitClaiming_win, State.exitClaiming_boundCtx]
  rfl

theorem State.becomeOwner_win :
    (s.becomeOwner w g q).win w = { s.unfollowed w with
      ownership := .owner, recordedOwner := s.station, generation := g, nextSeq := q, retry := 0,
      markTimer := s.freshMarkTimer } := by
  rw [State.becomeOwner, State.win_modWin, State.win_exitClaiming_leaveFollowed]

theorem State.becomeOwner_ownerDue : (s.becomeOwner w g q).ownerDue = (s.exitClaiming w).ownerDue := by
  have htouches := (State.leaveFollowed_touches (s := s.exitClaiming w) (w := w)).eq
  rw [State.becomeOwner, State.modWin_ownerDue, htouches]

theorem State.becomeOwner_win_of_ne {v : WinId} (hv : v ≠ w) :
    (s.becomeOwner w g q).win v = ((s.exitClaiming w).leaveFollowed w).win v :=
  State.win_modWin_of_ne _ _ hv

theorem State.becomeOwner_ctx (i : Fin 2) : (s.becomeOwner w g q).ctx i = ((s.exitClaiming w).leaveFollowed w).ctx i := rfl

theorem State.takeover_of_runs (hruns : s.li.line.runs) :
    s.takeover w = { s.becomeOwner w ((s.win w).generation + 1) (s.win w).takeoverSeq with
      ownerDue := (s.exitClaiming w).ownerDue ++ [.takeover w ((s.win w).generation + 1) (s.win w).takeoverSeq],
      en := s.eventOf { cause := .ownershipGained, window := some w, station := some (s.win w).recordedOwner,
                        sequence := some (s.win w).takeoverSeq } } := by
  have htouches := (State.becomeOwner_touches (s := s) (w := w) (g := (s.win w).generation + 1)
    (q := (s.win w).takeoverSeq)).withDue ((s.exitClaiming w).ownerDue ++
      [.takeover w ((s.win w).generation + 1) (s.win w).takeoverSeq])
  have hdue : (s.becomeOwner w ((s.win w).generation + 1) (s.win w).takeoverSeq).makeDue
      (.takeover w ((s.win w).generation + 1) (s.win w).takeoverSeq) =
      { s.becomeOwner w ((s.win w).generation + 1) (s.win w).takeoverSeq with
        ownerDue := (s.exitClaiming w).ownerDue ++ [.takeover w ((s.win w).generation + 1) (s.win w).takeoverSeq] } := by
    rw [State.makeDue, State.becomeOwner_ownerDue]
  rw [State.takeover]
  simp only [hdue]
  exact htouches.recordEvent hruns _

theorem State.takeover_win :
    (s.takeover w).win w = { s.unfollowed w with
      ownership := .owner, recordedOwner := s.station, generation := (s.win w).generation + 1,
      nextSeq := (s.win w).takeoverSeq, retry := 0, markTimer := s.freshMarkTimer } := by
  rw [State.takeover, State.win_recordEvent, ← State.becomeOwner_win]
  rfl

theorem State.takeover_ownerDue : (s.takeover w).ownerDue =
    (s.exitClaiming w).ownerDue ++ [.takeover w ((s.win w).generation + 1) (s.win w).takeoverSeq] :=
  congrArg (· ++ [_]) State.becomeOwner_ownerDue

theorem State.ctx_recordEvent (f : EventFields) (i : Fin 2) : (s.recordEvent f).ctx i = s.ctx i := rfl

theorem State.takeover_ctx (i : Fin 2) :
    (s.takeover w).ctx i = if s.reservedCtx w = some i ∨ s.boundCtx w = some i then .free else s.ctx i := by
  have hctx : (s.exitClaiming w).ctx i = s.ctx i := by rw [State.ctx, State.exitClaiming_contexts, ← State.ctx]
  have hleft := State.leaveFollowed_ctx (s := s.exitClaiming w) (w := w) i
  rw [State.exitClaiming_reservedCtx, State.exitClaiming_boundCtx, hctx] at hleft
  rw [State.takeover, State.ctx_recordEvent]
  exact hleft

theorem State.takeover_kept : (s.takeover w).rm = s.rm ∧ (s.takeover w).rh = s.rh := by
  have htouches := (State.becomeOwner_touches (s := s) (w := w) (g := (s.win w).generation + 1) (q := (s.win w).takeoverSeq)).eq
  have hkept : (s.becomeOwner w ((s.win w).generation + 1) (s.win w).takeoverSeq).rm = s.rm ∧
      (s.becomeOwner w ((s.win w).generation + 1) (s.win w).takeoverSeq).rh = s.rh := by
    rw [htouches]
    exact ⟨rfl, rfl⟩
  exact hkept

end Takeover

/-! ### A failed attempt (R93, R123) -/

section Failure
variable {s : State} {w : WinId} {i : Fin 2} {b : Binding}

theorem State.takesOverAtFailure_iff : s.takesOverAtFailure w = true ↔
    (s.win w).role = some .share ∧ (s.win w).desc.owner = s.station ∧ (s.win w).desc.takeoverPermitted = true := by
  simp only [State.takesOverAtFailure, Window.isShare, Bool.and_eq_true, decide_eq_true_eq, and_assoc]

theorem State.afterFailure_of_few (h : (s.win w).retry < 3) : s.afterFailure w = s.enterGap w := by
  rw [State.afterFailure]
  exact if_pos h

theorem State.afterFailure_of_takeover (h : ¬(s.win w).retry < 3) (htakes : s.takesOverAtFailure w = true) :
    s.afterFailure w = (s.modWin w fun x => { x with sync := .gap, gapOrigin := some .here, wait := .stopped }).takeover w := by
  rw [State.afterFailure, if_neg (show ¬(s.win w).retry < Config.retryLimit from h), if_pos htakes]

theorem State.afterFailure_of_stale (h : ¬(s.win w).retry < 3) (htakes : ¬s.takesOverAtFailure w = true) :
    s.afterFailure w = (s.enterStale w).recordEvent
      { cause := .windowStale, window := some w, station := some (s.win w).recordedOwner } := by
  rw [State.afterFailure, if_neg (show ¬(s.win w).retry < Config.retryLimit from h), if_neg htakes]

theorem State.afterFailure_kept : (s.afterFailure w).rm = s.rm ∧ (s.afterFailure w).rh = s.rh := by
  by_cases hretry : (s.win w).retry < 3
  · have htouches := (State.TouchesFollower.refl s).enterGap w
    rw [State.afterFailure_of_few hretry, htouches.eq]
    exact ⟨rfl, rfl⟩
  · by_cases htakes : s.takesOverAtFailure w = true
    · rw [State.afterFailure_of_takeover hretry htakes]
      exact State.takeover_kept
    · have htouches := ((State.TouchesFollower.refl s).enterStale w).eq
      have hkept : (s.enterStale w).rm = s.rm ∧ (s.enterStale w).rh = s.rh := by
        rw [htouches]
        exact ⟨rfl, rfl⟩
      rw [State.afterFailure_of_stale hretry htakes]
      exact hkept

/-- The event of a failed attempt. -/
def State.failureEvent (s : State) (w : WinId) (attempt : Option Attempt) : EventFields :=
  { cause := .refreshFailed, window := some w, station := some (attempt.elim (s.win w).recordedOwner (·.owner)),
    sequence := attempt.map (·.snapshot) }

/-- The context released and the attempt counted, before the window goes where its retry count sends it. -/
def State.attemptReleased (s : State) (w : WinId) : State :=
  (s.releaseBound w).modWin w fun x => { x with retry := min Config.retryLimit (x.retry + 1) }

theorem State.failAttempt_eq :
    s.failAttempt w = ((s.attemptReleased w).recordEvent
      (s.failureEvent w ((s.bindingOf w).bind (·.attempt)))).afterFailure w := by
  cases h : (s.bindingOf w).bind (·.attempt) <;> simp only [State.failAttempt, h] <;> rfl

theorem State.attemptReleased_touches : s.TouchesFollower (s.attemptReleased w) :=
  ((State.TouchesFollower.refl s).releaseBound w).modWin w _

theorem State.failAttempt_kept : (s.failAttempt w).rm = s.rm ∧ (s.failAttempt w).rh = s.rh := by
  have htouches := (State.attemptReleased_touches (s := s) (w := w)).eq
  have hrm : (s.attemptReleased w).rm = s.rm := by rw [htouches]
  have hrh : (s.attemptReleased w).rh = s.rh := by rw [htouches]
  rw [State.failAttempt_eq]
  exact ⟨State.afterFailure_kept.1.trans hrm, State.afterFailure_kept.2.trans hrh⟩

theorem State.enterGap_ctx (j : Fin 2) :
    (s.enterGap w).ctx j = if s.reservedCtx w = some j then .free else s.ctx j :=
  State.releaseReservation_ctx ((s.modWin w fun x => { x with sync := .gap, gapOrigin := some .here }).modWin w fun x =>
    { x with contextWait := false }) w j

theorem State.enterStale_ctx (j : Fin 2) :
    (s.enterStale w).ctx j = if s.reservedCtx w = some j then .free else s.ctx j :=
  State.releaseReservation_ctx (s.modWin w fun x =>
    { x with sync := .stale, gapOrigin := none, wait := .stopped, contextWait := false }) w j

theorem State.attemptReleased_win : ∃ (contextWait : Bool) (wait : WaitTimer),
    (s.attemptReleased w).win w = { s.win w with
      retry := min 3 ((s.win w).retry + 1), contextWait := contextWait, wait := wait } := by
  rw [State.attemptReleased, State.win_modWin, State.releaseBound_win]
  split
  · exact ⟨false, s.newDelay, rfl⟩
  · exact ⟨(s.win w).contextWait, (s.win w).wait, rfl⟩

/-- Where the window goes from the state `u` that a failed attempt of `s` leaves. -/
theorem State.afterFailure_fails {u : State} {contextWait : Bool} {wait : WaitTimer}
    (hwin : u.win w = { s.win w with retry := min 3 ((s.win w).retry + 1), contextWait := contextWait, wait := wait })
    (hfree : u.ctx i = .free) (hdelay : u.newDelay = s.newDelay) (hruns : u.li.line.runs) (hstation : u.station = s.station)
    (hevents : ∀ (e : EventUnit) (f : EventFields), u.eventIn e f = s.eventIn e f)
    (hen : u.en = s.eventOf (s.failureEvent w b.attempt)) : s.attemptFails (u.afterFailure w) w i b := by
  have hretry : (u.win w).retry = min 3 ((s.win w).retry + 1) := by rw [hwin]
  have htakes : u.takesOverAtFailure w = true ↔ (s.win w).role = some .share ∧ (s.win w).desc.owner = s.station ∧
      (s.win w).desc.takeoverPermitted = true := by
    rw [State.takesOverAtFailure_iff, hwin, hstation]
    rfl
  by_cases hfew : (s.win w).retry < 2
  · rw [State.afterFailure_of_few (by omega)]
    refine ⟨by rw [State.enterGap_ctx, hfree, ite_self], fun _ => ⟨?_, ?_⟩, fun h => absurd hfew (by omega),
      fun h => absurd hfew (by omega)⟩
    · have hmin : min 3 ((s.win w).retry + 1) = (s.win w).retry + 1 := by omega
      rw [State.enterGap_win, hwin, hmin, State.drawnTimer_eq_newDelay, hdelay]
    · rw [((State.TouchesFollower.refl u).enterGap w).eq]
      exact hen
  have hlast : ¬(u.win w).retry < 3 := by omega
  have hthree : min 3 ((s.win w).retry + 1) = 3 := by omega
  by_cases htakesOver : u.takesOverAtFailure w = true
  · rw [State.afterFailure_of_takeover hlast htakesOver]
    have hgap := State.win_modWin u w fun x => { x with sync := .gap, gapOrigin := some .here, wait := .stopped }
    refine ⟨by rw [State.takeover_ctx]; exact (congrArg _ hfree).trans (ite_self _), fun h => absurd h hfew, fun _ h => absurd (htakes.1 htakesOver) h,
      fun _ _ => ?_⟩
    rw [State.takeover_win, State.takeover_ownerDue, State.unfollowed, hgap, hwin]
    refine ⟨rfl, hstation, ite_self _, ite_self _, rfl, rfl, rfl, List.mem_append_right _ (List.mem_singleton_self _), ?_⟩
    rw [State.takeover_of_runs (by exact hruns), hgap, hwin]
    exact (hevents u.en _).trans (by rw [hen]; rfl)
  · rw [State.afterFailure_of_stale hlast htakesOver]
    have htouches := (State.TouchesFollower.refl u).enterStale w
    rw [htouches.recordEvent hruns]
    refine ⟨(State.enterStale_ctx i).trans (by rw [hfree, ite_self]), fun h => absurd h hfew, fun _ _ => ⟨?_, ?_⟩,
      fun _ h => absurd (htakes.2 h) htakesOver⟩
    · exact (State.enterStale_win u w).trans (by rw [hwin, hthree]; rfl)
    · rw [State.eventOf, hevents, hen, hwin]
      rfl

/-- R93 and R123, in the statements' words. -/
theorem State.failAttempt_fails (hruns : s.li.line.runs) (hbound : s.boundCtx w = some i) (hctx : s.ctx i = .bound b) :
    s.attemptFails (s.failAttempt w) w i b := by
  obtain ⟨contextWait, wait, hwin⟩ := State.attemptReleased_win (s := s) (w := w)
  have htouches := State.attemptReleased_touches (s := s) (w := w)
  have hfree : (s.attemptReleased w).ctx i = .free := (State.releaseBound_ctx i).trans (if_pos hbound)
  have heq := htouches.eq
  rw [State.failAttempt_eq, State.bindingOf_of_bound hbound hctx, Option.bind_some, htouches.recordEvent hruns]
  have hline : (s.attemptReleased w).li.line = s.li.line := by rw [heq]
  have htime : (s.attemptReleased w).li.lineTime = s.li.lineTime := by rw [heq]
  have hlp : (s.attemptReleased w).lp = s.lp := by rw [heq]
  exact State.afterFailure_fails hwin hfree htouches.newDelay (hline ▸ hruns) (congrArg (·.params.station) hlp)
    (fun e f => by simp only [State.eventIn, htime, hlp]) rfl

end Failure

/-! ### A completed refresh (R122) -/

section Completion
variable {s : State} {w : WinId} {i : Fin 2} {b : Binding} {a : Attempt}

/-- The window SYNCED after its refresh, with the update note given and its context not yet freed. -/
def State.refreshed (s : State) (w : WinId) (e : Word) : State :=
  ((s.enterSynced w e).modWin w fun x => { x with retry := 0, wait := .stopped }).noted w

theorem State.win_noted (s : State) (w : WinId) : (s.noted w).win w =
    { s.win w with updated := true, updateCount := min 255 ((s.win w).updateCount + 1) } :=
  State.win_modWin s w fun x => { x with updated := true, updateCount := min 255 (x.updateCount + 1) }

theorem State.refreshed_win (e : Word) : (s.refreshed w e).win w = { s.win w with
    sync := .synced, expected := some e, gapOrigin := none, behind := 0, retry := 0, wait := .stopped, updated := true,
    updateCount := min 255 ((s.win w).updateCount + 1) } := by
  rw [State.refreshed, State.win_noted, State.win_modWin, State.enterSynced, State.win_modWin]

theorem State.refreshed_newDelay (e : Word) : (s.refreshed w e).newDelay = s.newDelay := rfl

theorem State.completeRefresh_eq (hbound : s.boundCtx w = some i) (hctx : s.ctx i = .bound b) (hattempt : b.attempt = some a) :
    s.completeRefresh w =
      if b.overflow = true ∨ b.deferredGap = true ∨ (s.win w).recordedOwner ≠ a.owner then
        ((s.refreshed w (a.snapshot + 1 + BitVec.ofNat 16 b.deferred.length)).freeContext i).enterGap w
      else (s.refreshed w (a.snapshot + 1 + BitVec.ofNat 16 b.deferred.length)).freeContext i := by
  have hstill (e : Word) : (s.refreshed w e).releaseBound w = (s.refreshed w e).freeContext i :=
    State.releaseBound_of_bound (s := s.refreshed w e) hbound
  simp only [State.completeRefresh, State.bindingOf_of_bound hbound hctx, hattempt, State.updateNote_eq_noted,
    Bool.or_eq_true, decide_eq_true_eq, or_assoc]
  unfold State.refreshed at hstill ⊢
  simp only [hstill]

theorem State.completeRefresh_kept : (s.completeRefresh w).rm = s.rm ∧ (s.completeRefresh w).rh = s.rh := by
  rw [State.completeRefresh]
  cases s.bindingOf w with
  | none => exact ⟨rfl, rfl⟩
  | some b =>
    cases hattempt : b.attempt with
    | none => simp only [hattempt, and_self]
    | some a =>
      simp only [hattempt, State.updateNote_eq_noted]
      generalize hu : State.noted _ w = u
      have hrm : u.rm = s.rm := by rw [← hu]; rfl
      have hrh : u.rh = s.rh := by rw [← hu]; rfl
      have hreleased := ((State.TouchesFollower.refl u).releaseBound w)
      have hkept {t : State} (h : u.TouchesFollower t) : t.rm = s.rm ∧ t.rh = s.rh := by
        rw [h.eq]
        exact ⟨hrm, hrh⟩
      split
      · exact hkept (hreleased.enterGap w)
      · exact hkept hreleased

/-- R122, in the statements' words. -/
theorem State.completeRefresh_ends (hbound : s.boundCtx w = some i) (hctx : s.ctx i = .bound b)
    (hattempt : b.attempt = some a) (hwaits : (s.win w).contextWait = false) :
    s.refreshEnds (s.completeRefresh w) w i b a := by
  generalize he : a.snapshot + 1 + BitVec.ofNat 16 b.deferred.length = e
  have hwin : ((s.refreshed w e).freeContext i).win w = (s.refreshed w e).win w := by
    rw [State.freeContext_win, if_neg (by rw [State.refreshed_win]; simp [hwaits])]
  have hfree : ((s.refreshed w e).freeContext i).ctx i = .free := (State.freeContext_ctx _ i i).trans (if_pos rfl)
  have hdelay : ((s.refreshed w e).freeContext i).newDelay = s.newDelay :=
    ((State.TouchesFollower.refl (s.refreshed w e)).freeContext i).newDelay
  rw [State.completeRefresh_eq hbound hctx hattempt, he]
  have hafter := State.refreshed_win (s := s) (w := w) e
  rw [← hwin] at hafter
  generalize (s.refreshed w e).freeContext i = t at hafter hfree hdelay
  clear hwin
  unfold State.refreshEnds
  intro lost
  by_cases hlost : lost
  · rw [if_pos hlost, State.enterGap_win, hafter, he]
    exact ⟨by rw [State.enterGap_ctx, hfree, ite_self], rfl, rfl, rfl, rfl, rfl, fun h => absurd hlost h,
      fun _ => ⟨rfl, rfl, hdelay⟩⟩
  · rw [if_neg hlost, hafter, he]
    exact ⟨hfree, rfl, rfl, rfl, rfl, rfl, fun _ => ⟨rfl, rfl, rfl⟩, fun h => absurd h hlost⟩

end Completion

/-! ### The hold settled before an expiry (R30, R31, R118) -/

section Settled
variable {s : State} {w : WinId}

theorem State.settleWriter_of_none (h : s.rh.work = none) : s.settleWriter w = s := by
  simp only [State.settleWriter, h]

theorem State.settleWriter_of_other {k : Work} (h : s.rh.work = some k) (hother : k.window ≠ w) : s.settleWriter w = s := by
  simp only [State.settleWriter, h, if_neg hother]

theorem State.settleWriter_of_same {k : Work} (h : s.rh.work = some k) (hsame : k.window = w) :
    s.settleWriter w = s.endWriting k := by
  simp only [State.settleWriter, h, if_pos hsame]

theorem State.resumeHold_of_empty (h : s.rh.slots = []) : s.resumeHold = s := State.runHold_of_empty h _

/-- A page write that waits is withdrawn with its frame, and nothing of it is made. -/
theorem State.endWriting_of_waiting_page {i : Nat} {d : List Byte} (h : s.rm.arb.granted ≠ some .writer) :
    s.endWriting (.page w i d) = (s.withdrawRequest .writer).popHold := by
  have hgranted : (s.withdrawRequest .writer).granted .writer = false := decide_eq_false h
  simp only [State.endWriting, hgranted, Bool.false_eq_true, if_false]

theorem exec_refreshTimeoutExpiry {n : Nat} (hfollows : s.follows w) (hsync : (s.win w).sync = .refreshing)
    (hwait : (s.win w).wait = .refreshTimeout n) :
    exec (.refreshTimeoutExpiry w) s = .next ((s.settleWriter w).failAttempt w).resumeHold := by
  have hwaits : (s.win w).waitsTimeout = true := by
    simp only [Window.waitsTimeout, Window.followed_iff.2 hfollows, hsync, hwait, WaitTimer.isTimeout, decide_true, Bool.and_self]
  rw [exec, execRefreshTimeoutExpiry, if_pos hwaits]

end Settled

/-- Settles O27. -/
theorem refreshTimeoutFailsTheAttempt : Obligations.RefreshTimeoutFailsTheAttempt := by
  refine ⟨fun s w n i b hruns hfollows hsync hwait hbound hctx hrh => ⟨_, exec_refreshTimeoutExpiry hfollows hsync hwait, ?_⟩,
    fun s w n i f d hsync hfollows hwait hrh hgranted => ⟨_, exec_refreshTimeoutExpiry hfollows hsync hwait, ?_⟩⟩
  · obtain ⟨hkeptRm, hkeptRh⟩ := State.failAttempt_kept (s := s) (w := w)
    rw [State.settleWriter_of_none (by rw [hrh]), State.resumeHold_of_empty (by rw [hkeptRh, hrh])]
    exact ⟨State.failAttempt_fails hruns hbound hctx, hkeptRm, hkeptRh⟩
  · rw [State.settleWriter_of_same (w := w) (k := .page w i d) (by rw [hrh]) rfl, State.endWriting_of_waiting_page hgranted]
    obtain ⟨hkeptRm, hkeptRh⟩ := State.failAttempt_kept (s := (s.withdrawRequest .writer).popHold) (w := w)
    have hempty : ((s.withdrawRequest .writer).popHold.failAttempt w).rh = { slots := [], work := none } := by
      rw [hkeptRh]
      exact congrArg (fun h : ReceiveHold => ({ slots := h.slots.tail, work := none } : ReceiveHold)) hrh
    rw [State.resumeHold_of_empty (by rw [hempty]), hkeptRm]
    exact ⟨rfl, hempty, State.withdrawRequest_waiting (s := s) .writer⟩

/-! ### A claim timer's expiry (R136) -/

theorem exec_claimTimerExpiry {s : State} {w : WinId} {n : Nat} (hclaiming : (s.win w).ownership = .claiming)
    (htimer : (s.win w).claimTimer = .running n) : exec (.claimTimerExpiry w) s = .next (s.claimExpires w) := by
  rw [exec, execClaimTimerExpiry, if_pos ⟨hclaiming, by rw [htimer]; rfl⟩]

/-- Settles O28. -/
theorem claimTimerExpires : Obligations.ClaimTimerExpires := by
  intro s w n hruns hclaiming htimer
  rw [exec_claimTimerExpiry hclaiming htimer]
  refine ⟨fun hfew => ?_, fun hlast hnot => ⟨_, rfl, ?_⟩, fun hlast hpermitted hrh => ?_⟩
  · rw [State.claimExpires, if_pos (by exact hfew)]
    rfl
  · have hended := State.endClaim_of_claiming hclaiming
    rw [State.withdrawClaim_eq] at hended
    have hexpires : s.claimExpires w = (s.endClaim w).recordEvent
        { cause := .claimFailed, window := some w, station := some (s.win w).recordedOwner } := by
      rw [State.claimExpires, if_neg (by rw [hlast]; decide), if_neg (by rw [hnot]; simp)]
    rw [hexpires, State.recordEvent_of_kept (s := s) hruns (by rw [hended]) (by rw [hended]) (by rw [hended]), hended]
    exact ⟨State.win_modWin s w fun x => { x with ownership := .follower, claimAttempts := 0, claimTimer := .stopped },
      fun v hv => State.win_modWin_of_ne s (fun x => { x with ownership := .follower, claimAttempts := 0, claimTimer := .stopped }) hv,
      by simp, rfl, rfl⟩
  · intro q
    refine ⟨_, rfl, ?_⟩
    have hexpires : s.claimExpires w = s.takeover w := by
      rw [State.claimExpires, if_neg (by rw [hlast]; decide), if_pos hpermitted, State.settleWriter_of_none (by rw [hrh]),
        State.resumeHold_of_empty (by rw [State.takeover_kept.2, hrh])]
    rw [hexpires, State.takeover_win, State.takeover_ownerDue, State.exitClaiming_ownerDue, if_pos hclaiming]
    refine ⟨rfl, rfl, rfl, rfl, rfl, if_pos hclaiming, if_pos hclaiming, rfl, rfl, by simp,
      List.mem_append_right _ (List.mem_singleton_self _), ?_, congrArg (·.mem) State.takeover_kept.1⟩
    rw [State.takeover_of_runs hruns]
    rfl

end Sys2Proof.Machine
end

section
/-!
Sweep frames and refresh requests at the window they name (R91, R97, R101, R114 to R117, R121).
-/

namespace Sys2Proof.Machine

/-! ### The Sweep Engine's answers (R101) -/

theorem SweepEngine.queued_iff {e : SweepEngine} {w : WinId} : e.queued w = true ↔ ∃ p ∈ e.queue, p.1 = w := by
  simp [SweepEngine.queued]

theorem SweepEngine.add_eq (e : SweepEngine) (w : WinId) (o : Origin) : e.add w o = e.withQueue (e.queue ++ [(w, o)]) :=
  SweepEngine.promote_eq e _

theorem SweepEngine.request_of_current {e : SweepEngine} {w : WinId} {c : Sweep} (h : e.current = some c) (hw : c.window = w) :
    e.request w = { e with current := some { c with again := c.again || c.sweepId.isSome } } := by
  rw [SweepEngine.request, SweepEngine.currentOf_of_window h hw]
  cases hbegun : c.sweepId.isSome with
  | false =>
    simp only [hbegun, Bool.false_eq_true, if_false, Bool.or_false]
    rw [← h]
  | true => simp only [hbegun, if_true, Bool.or_true]

theorem SweepEngine.request_of_other {e : SweepEngine} {w : WinId} (h : ∀ c ∈ e.current, c.window ≠ w) :
    e.request w = if ∃ p ∈ e.queue, p.1 = w then e else e.withQueue (e.queue ++ [(w, .requested)]) := by
  rw [SweepEngine.request, SweepEngine.currentOf_of_other h, SweepEngine.add_eq]
  simp only [SweepEngine.queued_iff]

/-! ### A context to bind (R91, R113, R115) -/

/-- A REFRESH_REQ of the window that is on the line has been withdrawn by its source. -/
def Transmitter.RequestWithdrawn (tx : Transmitter) (w : WinId) : Prop :=
  ∀ f : OnLine, tx.onLine = some f → f.source = .refreshReq w → f.withdrawn = true

section Requests
variable {s : State} {w : WinId}

theorem Transmitter.mapOnLine_of_fixed {tx : Transmitter} {g : OnLine → OnLine}
    (h : ∀ f : OnLine, tx.onLine = some f → g f = f) : tx.mapOnLine g = tx := by
  cases tx with
  | idle => rfl
  | arbitrate f => rw [Transmitter.mapOnLine, h f rfl]
  | send f => rw [Transmitter.mapOnLine, h f rfl]

theorem Transmitter.onLine_mapOnLine (tx : Transmitter) (g : OnLine → OnLine) : (tx.mapOnLine g).onLine = tx.onLine.map g := by
  cases tx <;> rfl

theorem State.withdrawRefreshReq_of_withdrawn (h : s.li.tx.RequestWithdrawn w) : s.withdrawRefreshReq w = s := by
  have hfixed : (s.li.tx.mapOnLine fun f => if decide (f.source = .refreshReq w) then f.withdraw else f) = s.li.tx := by
    refine Transmitter.mapOnLine_of_fixed fun f hf => ?_
    by_cases hsource : f.source = .refreshReq w
    · have hwithdrawn := h f hf hsource
      rw [if_pos (by simp [hsource]), OnLine.withdraw, ← hwithdrawn]
    · rw [if_neg (by simp [hsource])]
  rw [State.withdrawRefreshReq, State.withdrawOnLine, State.modLi, hfixed]

theorem State.withdrawRefreshReq_withdrawn : (s.withdrawRefreshReq w).li.tx.RequestWithdrawn w := by
  intro f hf hsource
  rw [State.withdrawRefreshReq, State.withdrawOnLine, State.modLi_li, Transmitter.onLine_mapOnLine] at hf
  obtain ⟨f', -, rfl⟩ := Option.map_eq_some_iff.1 hf
  by_cases hsource' : f'.source = .refreshReq w
  · rw [if_pos (by simp [hsource'])]
    rfl
  · rw [if_neg (by simp [hsource'])] at hsource
    exact absurd hsource hsource'

/-- A reservation released keeps a withdrawn request withdrawn, and the frame on the line as it is then. -/
theorem State.releaseReservation_tx_of_withdrawn (h : s.li.tx.RequestWithdrawn w) :
    (s.releaseReservation w).li.tx = s.li.tx := by
  cases hreserved : s.reservedCtx w with
  | none => rw [State.releaseReservation_of_none hreserved]
  | some i => simp only [State.releaseReservation, hreserved, State.withdrawRefreshReq_of_withdrawn h, State.freeContext_eq]

theorem State.requestOnLine_iff :
    s.requestOnLine w = true ↔ ∃ f : OnLine, s.li.tx.onLine = some f ∧ f.source = .refreshReq w ∧ f.withdrawn = false := by
  rw [State.requestOnLine]
  cases s.li.tx.onLine <;> simp

theorem Transmitter.requestWithdrawn_of_not_onLine (h : s.requestOnLine w = false) : s.li.tx.RequestWithdrawn w := by
  intro f hf hsource
  cases hw : f.withdrawn with
  | true => rfl
  | false => exact absurd (State.requestOnLine_iff.2 ⟨f, hf, hsource, hw⟩) (by simp [h])

theorem State.bindsContext_iff {i : Fin 2} :
    s.bindsContext w i ↔ s.reservedCtx w = some i ∨ (s.reservedCtx w = none ∧ s.freeCtx = some i) := by
  simp only [State.reservedCtx, State.freeCtx, State.findCtx_eq_some_iff, State.findCtx_eq_none_iff, decide_eq_true_eq,
    decide_eq_false_iff_not]

theorem State.bindAlready_of_reserved {i : Fin 2} (h : s.reservedCtx w = some i) :
    s.bindAlready w = some ((s.withdrawRefreshReq w).bindContext i w .already) := by
  simp only [State.bindAlready, h]

theorem State.bindAlready_of_free {i : Fin 2} (h : s.reservedCtx w = none) (hfree : s.freeCtx = some i) :
    s.bindAlready w = some (s.bindContext i w .already) := by
  simp only [State.bindAlready, h, hfree, Option.map_some]

theorem State.bindAlready_of_none (h : ∀ i : Fin 2, ¬s.bindsContext w i) : s.bindAlready w = none ∧ s.reservedCtx w = none := by
  cases hreserved : s.reservedCtx w with
  | some i => exact absurd (State.bindsContext_iff.2 (.inl hreserved)) (h i)
  | none =>
    cases hfree : s.freeCtx with
    | some i => exact absurd (State.bindsContext_iff.2 (.inr ⟨hreserved, hfree⟩)) (h i)
    | none => simp only [State.bindAlready, hreserved, hfree, Option.map_none, and_self]

/-- The context bound: the window's own request, if it had one, is withdrawn. -/
theorem State.bindAlready_spec {i : Fin 2} (h : s.bindsContext w i) :
    ∃ u : State, s.bindAlready w = some (u.bindContext i w .already) ∧
      (u = s ∨ (u = s.withdrawRefreshReq w ∧ s.reservedCtx w = some i)) ∧
      (s.ctx i = .reserved w → u = s.withdrawRefreshReq w) := by
  rcases State.bindsContext_iff.1 h with hreserved | ⟨hreserved, hfree⟩
  · exact ⟨_, State.bindAlready_of_reserved hreserved, .inr ⟨rfl, hreserved⟩, fun _ => rfl⟩
  · refine ⟨_, State.bindAlready_of_free hreserved hfree, .inl rfl, fun hctx => ?_⟩
    have hnot := State.findCtx_eq_none_iff.1 hreserved i
    exact absurd hctx (of_decide_eq_false hnot)

end Requests

/-! ### Another station's REFRESH_REQ (R91, R101) -/

section Suppress
variable {s : State} {w : WinId} {src : Station} {base : Word} {n : Byte}

theorem State.suppress_of_not (h : n ≠ (s.win w).desc.pageCount ∨ ¬s.follows w ∨ s.li.onlineSeen = false ∨
    s.requestOnLine w = true ∨ ((s.win w).sync ≠ .gap ∧ (s.win w).sync ≠ .unsynced)) : s.suppress w n = s := by
  rw [State.suppress]
  split_ifs with hcheck
  · rfl
  · simp only [not_or, Bool.not_eq_true, Bool.not_eq_false'] at hcheck
    obtain ⟨hpages, hfollowed, hseen, hline⟩ := hcheck
    have hsync : (s.win w).sync ≠ .gap ∧ (s.win w).sync ≠ .unsynced := by
      rcases h with h | h | h | h | h
      · exact absurd h hpages
      · exact absurd (Window.followed_iff.1 hfollowed) h
      · rw [hseen] at h; cases h
      · rw [hline] at h; cases h
      · exact h
    cases hs : (s.win w).sync with
    | gap => exact absurd hs hsync.1
    | unsynced => exact absurd hs hsync.2
    | synced | refreshing | stale => rfl

theorem State.suppress_of_binds (hpages : n = (s.win w).desc.pageCount) (hfollows : s.follows w)
    (hseen : s.li.onlineSeen = true) (hline : s.requestOnLine w = false)
    (hsync : (s.win w).sync = .gap ∨ (s.win w).sync = .unsynced) : s.suppress w n = (s.bindAlready w).getD s := by
  rw [State.suppress, if_neg (by simp [hpages, Window.followed_iff.2 hfollows, hseen, hline])]
  rcases hsync with hs | hs <;> simp only [hs]

theorem State.answerRequest_of_not_owner (h : (s.win w).ownership ≠ .owner) : s.answerRequest w src n = s := by
  rw [State.answerRequest, if_neg h]

end Suppress

/-- Settles O39. -/
theorem refreshRequestsAreAnswered : Obligations.RefreshRequestsAreAnswered := by
  intro s w src base n
  have hhandle : s.handleFor w src (.refreshReq base n) = (s.answerRequest w src n).suppress w n := rfl
  rw [hhandle]
  refine ⟨fun howner => ?_, fun hgranting => ?_, fun hfollows => ?_⟩
  · have hnot : ¬s.follows w := by rintro (h | h) <;> rw [howner] at h <;> cases h
    refine ⟨fun hpages hruns => ?_, fun hpages => ?_⟩
    · have hanswer : s.answerRequest w src n =
          { s with en := s.eventOf { cause := .sizeMismatch, window := some w, station := some src } } := by
        rw [State.answerRequest, if_pos howner, if_pos hpages, State.recordEvent_of_runs hruns]
      rw [hanswer]
      exact State.suppress_of_not (.inl hpages)
    · have hanswer : s.answerRequest w src n = { s with se := s.se.request w } := by
        rw [State.answerRequest, if_pos howner, if_neg (not_not.2 hpages)]
        rfl
      rw [hanswer, State.suppress_of_not (s := { s with se := s.se.request w }) (.inr (.inl hnot))]
      exact ⟨fun c hcurrent hw => by rw [SweepEngine.request_of_current hcurrent hw],
        fun hother => by rw [SweepEngine.request_of_other hother]⟩
  · have hnot : ¬s.follows w := by rintro (h | h) <;> rw [hgranting] at h <;> cases h
    rw [State.answerRequest_of_not_owner (by rw [hgranting]; simp), State.suppress_of_not (.inr (.inl hnot))]
  · have hnot : (s.win w).ownership ≠ .owner := by rcases hfollows with h | h <;> rw [h] <;> simp
    rw [State.answerRequest_of_not_owner hnot]
    intro ownOnLine binds
    have hline : ownOnLine ↔ s.requestOnLine w = true := State.requestOnLine_iff.symm
    have hsuppress (h : binds) : s.suppress w n = (s.bindAlready w).getD s := by
      obtain ⟨hpages, hseen, hown, hsync⟩ := h
      exact State.suppress_of_binds hpages hfollows hseen (Bool.eq_false_iff.2 (mt hline.2 hown)) hsync
    refine ⟨fun hnone => ?_, fun hbinds i hi => ?_⟩
    · by_cases hbinds : binds
      · rw [hsuppress hbinds, (State.bindAlready_of_none (hnone.resolve_left (not_not.2 hbinds))).1, Option.getD_none]
      · refine State.suppress_of_not ?_
        by_contra hall
        simp only [not_or, not_not, not_and_or, Bool.not_eq_false] at hall
        obtain ⟨hpages, -, hseen, hown, hsync⟩ := hall
        exact hbinds ⟨hpages, hseen, fun h => hown (hline.1 h), hsync⟩
    · obtain ⟨u, hbind, hu, -⟩ := State.bindAlready_spec hi
      have hown : s.requestOnLine w = false := Bool.eq_false_iff.2 (mt hline.2 hbinds.2.2.1)
      have hsame : u = s := by
        rcases hu with rfl | ⟨rfl, -⟩
        · rfl
        · exact State.withdrawRefreshReq_of_withdrawn (Transmitter.requestWithdrawn_of_not_onLine hown)
      rw [hsuppress hbinds, hbind, Option.getD_some, hsame]
      rfl

end Sys2Proof.Machine
end

section
/-!
SWEEP_BEGIN, SWEEP_DATA and SWEEP_END at a followed window (R97, R114 to R117, R121 to R123).
-/

namespace Sys2Proof.Machine

/-! ### The follower's checks (R114) -/

section Checks
variable {s : State} {w : WinId} {src : Station} {k : State → State}

theorem State.sweepChecked_of_not_followed (h : ¬s.follows w) : s.sweepChecked w src k = s := by
  rw [State.sweepChecked, if_neg (mt Window.followed_iff.1 h)]

theorem State.sweepChecked_of_foreign (h : s.follows w) (hother : src ≠ (s.win w).recordedOwner) :
    s.sweepChecked w src k = { s with en := s.en.bump .foreign 1 } := by
  rw [State.sweepChecked, if_pos (Window.followed_iff.2 h), if_neg hother, State.foreign_eq]

theorem State.sweepChecked_of_owner (h : s.follows w) (howner : src = (s.win w).recordedOwner) :
    s.sweepChecked w src k = k s := by
  rw [State.sweepChecked, if_pos (Window.followed_iff.2 h), if_pos howner]

end Checks

/-! ### SWEEP_BEGIN (R115, R116) -/

section Begin
variable {s : State} {w : WinId} {src : Station} {id : Byte} {sn : Word} {n : Byte} {i : Fin 2} {b : Binding}

theorem State.modBinding_li (g : Binding → Binding) : (s.modBinding w g).li = s.li := by
  unfold State.modBinding
  cases s.boundCtx w with
  | none => rfl
  | some i => cases hctx : s.ctx i <;> simp only [hctx, State.setCtx_li]

theorem State.sizeMismatch_tx_of_withdrawn {q : Option Word} (h : s.li.tx.RequestWithdrawn w) :
    (s.sizeMismatch w src q).li.tx = s.li.tx := by
  have hreleased (t : State) : (t.releaseBound w).li = t.li := by
    cases hbound : t.boundCtx w with
    | none => rw [State.releaseBound_of_none hbound]
    | some i => rw [State.releaseBound_of_bound hbound, State.freeContext_eq]
  have hstale (t : State) (ht : t.li.tx.RequestWithdrawn w) : (t.enterStale w).li.tx = t.li.tx :=
    State.releaseReservation_tx_of_withdrawn (s := t.modWin w fun x =>
      { x with sync := .stale, gapOrigin := none, wait := .stopped, contextWait := false }) ht
  rw [State.sizeMismatch, hstale _ (by rw [hreleased]; exact h), hreleased]
  rfl

section Bound
variable (hbound : s.boundCtx w = some i) (hctx : s.ctx i = .bound b)
include hbound hctx

theorem State.takeBegin_of_mismatch (h : n.toNat ≠ b.pageCount) :
    s.takeBegin w src id sn n = s.sizeMismatch w src none := by
  simp only [State.takeBegin, State.bindingOf_of_bound hbound hctx, if_pos h]

theorem State.takeBegin_of_match (h : n.toNat = b.pageCount) :
    s.takeBegin w src id sn n = { s with
      contexts := s.contexts.set i
        (.bound (Binding.begun w b.pageCount (some { owner := src, sweepId := id, snapshot := sn }))),
      windows := s.windows.set w { s.win w with wait := s.refreshTimer } } := by
  obtain ⟨b', hctx', hwindow⟩ := State.boundCtx_some hbound
  have hb : b' = b := by rw [hctx] at hctx'; exact (RefreshContext.bound.inj hctx').symm
  have hbegun : Binding.begun w b.pageCount (some { owner := src, sweepId := id, snapshot := sn }) =
      { b with attempt := some { owner := src, sweepId := id, snapshot := sn }, received := [], deferred := [],
               overflow := false, deferredGap := false } := by
    rw [← hwindow, hb]
    rfl
  simp only [State.takeBegin, State.bindingOf_of_bound hbound hctx, State.modBinding_of_bound hbound hctx, h, ne_eq,
    not_true_eq_false, if_false, hbegun]
  rfl

theorem State.takeBegin_tx_of_withdrawn (h : s.li.tx.RequestWithdrawn w) : (s.takeBegin w src id sn n).li.tx = s.li.tx := by
  by_cases hpages : n.toNat = b.pageCount
  · rw [State.takeBegin_of_match hbound hctx hpages]
  · rw [State.takeBegin_of_mismatch hbound hctx hpages, State.sizeMismatch_tx_of_withdrawn h]

/-- SIZE_MISMATCH at a SWEEP_BEGIN: from a state `u` that the joining has brought about in `s`. -/
theorem State.takeBegin_mismatches {u : State} (htouches : u.TouchesFollower s) (hruns : u.li.line.runs)
    (hstale : (s.win w).stale = (u.win w).stale) (h : n.toNat ≠ b.pageCount) :
    let t := s.takeBegin w src id sn n
    t.win w = (u.win w).stale ∧ t.ctx i = .free ∧ t.rm = u.rm ∧ t.rh = u.rh ∧
      t.en = u.eventOf { cause := .sizeMismatch, window := some w, station := some src } := by
  have hsame := htouches.eq
  have hline : s.li.line = u.li.line := by rw [hsame]
  have hevent : s.recordEvent { cause := .sizeMismatch, window := some w, station := some src } =
      { s with en := u.eventOf { cause := .sizeMismatch, window := some w, station := some src } } :=
    htouches.recordEvent hruns _
  rw [State.recordEvent_of_runs (hline ▸ hruns)] at hevent
  obtain ⟨v, hv, hmismatch⟩ := State.sizeMismatch_touches (s := s) (w := w) (src := src) (q := none) (hline ▸ hruns)
  intro t
  have ht : t = s.sizeMismatch w src none := State.takeBegin_of_mismatch hbound hctx h
  have hkept : t.rm = s.rm ∧ t.rh = s.rh := by
    rw [ht, hmismatch, hv.eq]
    exact ⟨rfl, rfl⟩
  refine ⟨by rw [ht, State.sizeMismatch_win, hstale], by rw [ht, State.sizeMismatch_ctx hbound], ?_, ?_, ?_⟩
  · rw [hkept.1, hsame]
  · rw [hkept.2, hsame]
  · rw [ht, hmismatch]
    exact congrArg State.en hevent

end Bound

theorem State.joinSweep_of_bound {u : State} (hseen : s.li.onlineSeen = true) (h : s.bindAlready w = some u) :
    s.joinSweep w src id sn n = u.takeBegin w src id sn n := by
  rw [State.joinSweep, if_neg (by simp [hseen]), h]

theorem State.joinSweep_of_unseen (h : s.li.onlineSeen = false) : s.joinSweep w src id sn n = s := by
  rw [State.joinSweep, if_pos (by simp [h])]

theorem State.joinSweep_of_none (hseen : s.li.onlineSeen = true) (h : s.bindAlready w = none) :
    s.joinSweep w src id sn n = if (s.win w).sync = .synced then
      (s.enterUnsynced w).recordEvent
        { cause := .restartSuspected, window := some w, station := some src, sequence := some sn }
      else s := by
  rw [State.joinSweep, if_neg (by simp [hseen]), h]

theorem State.followBegin_of_joins {o : Origin} (h : (s.win w).sync = .unsynced ∨ (s.win w).sync = .gap ∨
    (s.win w).sync = .stale ∨ ((s.win w).sync = .synced ∧ o = .start)) :
    s.followBegin w src id sn n o = s.joinSweep w src id sn n := by
  rw [State.followBegin]
  rcases h with h | h | h | ⟨h, rfl⟩ <;> simp only [h, if_true]

theorem State.followBegin_of_synced {o : Origin} (h : (s.win w).sync = .synced) (ho : o ≠ .start) :
    s.followBegin w src id sn n o = s := by
  rw [State.followBegin]
  simp only [h, if_neg ho]

theorem State.followBegin_of_refreshing {o : Origin} (h : (s.win w).sync = .refreshing) :
    s.followBegin w src id sn n o = s.takeBegin w src id sn n := by
  rw [State.followBegin]
  simp only [h]

/-- A context bound to the window that had none is the one just bound. -/
theorem State.bindContext_boundCtx {g : GapOrigin} (h : s.boundCtx w = none) : (s.bindContext i w g).boundCtx w = some i := by
  have hnone := State.findCtx_eq_none_iff.1 h
  refine State.findCtx_eq_some_iff.2 ⟨?_, fun j hj => ?_⟩
  · rw [State.bindContext_ctx, if_pos rfl]
    exact decide_eq_true rfl
  · rw [State.bindContext_ctx, if_neg (ne_of_lt hj)]
    exact hnone j

theorem State.bindContext_takeBegin_of_match (hunbound : s.boundCtx w = none) (hpages : n.toNat = (s.win w).pages) :
    (s.bindContext i w .already).takeBegin w src id sn n = { s with
      contexts := s.contexts.set i
        (.bound (Binding.begun w (s.win w).pages (some { owner := src, sweepId := id, snapshot := sn }))),
      windows := s.windows.set w { s.win w with
        sync := .refreshing, gapOrigin := some .already, contextWait := false, wait := s.refreshTimer } } := by
  rw [State.takeBegin_of_match (State.bindContext_boundCtx hunbound) ((State.bindContext_ctx s i i w _).trans (if_pos rfl)) hpages,
    State.bindContext_win, if_pos rfl, State.bindContext_eq, Vector.set_set, Vector.set_set]
  rfl

theorem State.enterUnsynced_of_not_reserved (h : s.reservedCtx w = none) :
    s.enterUnsynced w = { s with windows := s.windows.set w { s.win w with
      sync := .unsynced, expected := none, gapOrigin := none, contextWait := false, wait := s.newDelay } } := by
  have hreserved : (s.modWin w fun x => { x with sync := .unsynced, expected := none, gapOrigin := none }).reservedCtx w = none := h
  rw [State.enterUnsynced, State.beginDelay_eq hreserved]
  simp [State.modWin, State.win]
  rfl

end Begin

/-- Settles O40. -/
theorem sweepBeginIsTaken : Obligations.SweepBeginIsTaken := by
  intro s w src base g id sn n o
  have hhandle : s.handleFor w src (.sweepBegin base g id sn n o) =
      s.sweepChecked w src fun t => t.followBegin w src id sn n o := rfl
  rw [hhandle]
  intro t attempt timeout joins mismatch
  refine ⟨fun hnot => State.sweepChecked_of_not_followed hnot, fun hfollows hother => State.sweepChecked_of_foreign hfollows hother,
    fun hfollows howner hruns => ?_⟩
  have ht : t = s.followBegin w src id sn n o := State.sweepChecked_of_owner hfollows howner
  refine ⟨fun hsync ho => by rw [ht, State.followBegin_of_synced hsync ho], fun hjoins hunseen => ?_,
    fun hjoins hseen hunbound => ⟨fun i hi => ?_, fun hnone => ?_⟩, fun i b hsync hbound hctx => ?_⟩
  · rw [ht, State.followBegin_of_joins hjoins, State.joinSweep_of_unseen hunseen]
  · obtain ⟨u, hbind, hu, hreserved⟩ := State.bindAlready_spec hi
    have htaken : t = (u.bindContext i w .already).takeBegin w src id sn n := by
      rw [ht, State.followBegin_of_joins hjoins, State.joinSweep_of_bound hseen hbind]
    have htx : u = { s with li := { s.li with tx := u.li.tx } } := by
      rcases hu with rfl | ⟨rfl, -⟩ <;> rfl
    have hbound : (u.bindContext i w .already).boundCtx w = some i :=
      State.bindContext_boundCtx (s := u) (by rw [htx]; exact hunbound)
    have hctx : (u.bindContext i w .already).ctx i = .bound (Binding.fresh w (u.win w).pages) :=
      (State.bindContext_ctx u i i w _).trans (if_pos rfl)
    have hkeeps (h : u.li.tx.RequestWithdrawn w) : t.li.tx = u.li.tx := by
      rw [htaken]
      exact State.takeBegin_tx_of_withdrawn hbound hctx h
    refine ⟨fun hpages => ?_, fun hpages => ?_, fun f hf hsource hres => ?_, fun hline => ?_⟩
    · have heq : t = _ := htaken.trans (State.bindContext_takeBegin_of_match (s := u) (by rw [htx]; exact hunbound)
        (by rw [htx]; exact hpages))
      obtain ⟨tx, rfl⟩ : ∃ tx : Transmitter, u = { s with li := { s.li with tx := tx } } := ⟨_, htx⟩
      rw [heq]
      rfl
    · have htouches : s.TouchesFollower (u.bindContext i w .already) :=
        State.TouchesFollower.modWin (State.TouchesFollower.setCtx ⟨_, s.contexts, s.windows, htx⟩ i _) w _
      have hstale : ((u.bindContext i w .already).win w).stale = (s.win w).stale := by
        have hwin : u.win w = s.win w := by rw [htx]; rfl
        rw [State.bindContext_win, if_pos rfl, hwin]
        rfl
      have hwin : (u.win w).pages = (s.win w).pages := by rw [htx]; rfl
      have hall := State.takeBegin_mismatches (src := src) (id := id) (sn := sn) hbound hctx htouches hruns hstale
        (show n.toNat ≠ (u.win w).pages from hwin ▸ hpages)
      rw [← htaken] at hall
      exact hall
    · have hu' := hreserved hres
      have hwithdrawn : u.li.tx.RequestWithdrawn w := by rw [hu']; exact State.withdrawRefreshReq_withdrawn
      rw [hkeeps hwithdrawn] at hf
      exact hwithdrawn f hf hsource
    · have hwithdrawn : s.li.tx.RequestWithdrawn w := fun f hf hsource => absurd hsource (hline f hf)
      have hsame : u = s := by
        rcases hu with rfl | ⟨rfl, -⟩
        · rfl
        · exact State.withdrawRefreshReq_of_withdrawn hwithdrawn
      rw [hkeeps (by rw [hsame]; exact hwithdrawn), hsame]
  · obtain ⟨hbind, hreserved⟩ := State.bindAlready_of_none hnone
    have hjoined := State.joinSweep_of_none (src := src) (id := id) (sn := sn) (n := n) hseen hbind
    refine ⟨fun hsync => by rw [ht, State.followBegin_of_joins hjoins, hjoined, if_neg hsync], fun hsync => ?_⟩
    rw [ht, State.followBegin_of_joins hjoins, hjoined, if_pos hsync, State.enterUnsynced_of_not_reserved hreserved]
    exact State.recordEvent_of_runs (s := { s with windows := s.windows.set w { s.win w with
      sync := .unsynced, expected := none, gapOrigin := none, contextWait := false, wait := s.newDelay } }) hruns _
  · refine ⟨fun hpages => ?_, fun hpages => ?_⟩
    · rw [ht, State.followBegin_of_refreshing hsync, State.takeBegin_of_match hbound hctx hpages]
      rfl
    · have hall := State.takeBegin_mismatches (src := src) (id := id) (sn := sn) hbound hctx (State.TouchesFollower.refl s) hruns rfl
        hpages
      rw [← State.followBegin_of_refreshing (o := o) hsync, ← ht] at hall
      exact hall

end Sys2Proof.Machine
end

section
/-!
SWEEP_DATA and SWEEP_END at the attempt they match (R114, R117, R121 to R123).
-/

namespace Sys2Proof.Machine

section Attempts
variable {s : State} {w : WinId} {src : Station} {base : Word} {id : Byte} {i : Fin 2} {b : Binding} {a : Attempt}

/-- The frame's source and sweep id match the binding's attempt. -/
theorem Binding.attempt_isFrom_iff :
    (b.attempt.any fun a => a.isFrom src id) = true ↔ ∃ a : Attempt, b.attempt = some a ∧ a.owner = src ∧ a.sweepId = id := by
  cases b.attempt <;> simp [Attempt.isFrom]

theorem Binding.whole_iff : b.whole = true ↔ ∀ p : Nat, p < b.pageCount → p ∈ b.received := by
  simp [Binding.whole]

theorem State.handleFor_sweepData (hfollows : s.follows w) (howner : src = (s.win w).recordedOwner) (p : Byte) (d : List Byte) :
    s.handleFor w src (.sweepData base id p d) =
      if (s.win w).sync = .refreshing then s.takePage w src id p d else s :=
  State.sweepChecked_of_owner hfollows howner

theorem State.handleFor_sweepEnd (hfollows : s.follows w) (howner : src = (s.win w).recordedOwner) (n : Byte) (x : Bool) :
    s.handleFor w src (.sweepEnd base id n x) =
      if (s.win w).sync = .refreshing then s.takeEnd w src id x else s :=
  State.sweepChecked_of_owner hfollows howner

section Bound
variable (hbound : s.boundCtx w = some i) (hctx : s.ctx i = .bound b)
include hbound hctx

theorem State.takePage_of_not {p : Byte} {d : List Byte}
    (h : (∀ a : Attempt, b.attempt = some a → ¬(a.owner = src ∧ a.sweepId = id)) ∨ b.pageCount ≤ p.toNat) :
    s.takePage w src id p d = s := by
  have hnot : ¬((b.attempt.any fun a => a.isFrom src id) = true ∧ p.toNat < b.pageCount) := by
    rintro ⟨hfrom, hp⟩
    obtain ⟨a, hattempt, hmatch⟩ := Binding.attempt_isFrom_iff.1 hfrom
    exact h.elim (fun hnone => hnone a hattempt hmatch) (Nat.not_le.2 hp)
  simp only [State.takePage, State.bindingOf_of_bound hbound hctx, if_neg hnot]

theorem State.takePage_of_match {p : Byte} (d : List Byte) (hattempt : b.attempt = some a) (howner : a.owner = src)
    (hid : a.sweepId = id) (hp : p.toNat < b.pageCount) :
    s.takePage w src id p d = { s with
      windows := s.windows.set w { s.win w with wait := s.refreshTimer },
      rh := { s.rh with work := some (.page w p.toNat d) },
      rm := { s.rm with arb := s.rm.arb.request .writer s.presentBt } } := by
  have hfrom := Binding.attempt_isFrom_iff.2 ⟨a, hattempt, howner, hid⟩
  simp only [State.takePage, State.bindingOf_of_bound hbound hctx, hfrom, true_and, if_pos hp]
  rfl

theorem State.takeEnd_of_not {x : Bool} (h : ∀ a : Attempt, b.attempt = some a → ¬(a.owner = src ∧ a.sweepId = id)) :
    s.takeEnd w src id x = s := by
  have hnot : ¬(b.attempt.any fun a => a.isFrom src id) = true := fun hfrom => by
    obtain ⟨a, hattempt, hmatch⟩ := Binding.attempt_isFrom_iff.1 hfrom
    exact h a hattempt hmatch
  simp only [State.takeEnd, State.bindingOf_of_bound hbound hctx, if_neg hnot]

/-- The window's refresh timeout stopped, as a matching SWEEP_END finds it. -/
def State.timeoutStopped (s : State) (w : WinId) : State := s.modWin w fun x => { x with wait := .stopped }

theorem State.takeEnd_of_match {x : Bool} (hattempt : b.attempt = some a) (howner : a.owner = src) (hid : a.sweepId = id) :
    s.takeEnd w src id x = if x = true ∨ ¬(∀ p : Nat, p < b.pageCount → p ∈ b.received) then (s.timeoutStopped w).failAttempt w
      else (s.timeoutStopped w).applyDeferred w b.deferred := by
  have hfrom := Binding.attempt_isFrom_iff.2 ⟨a, hattempt, howner, hid⟩
  have hfails : (x || !b.whole) = true ↔ x = true ∨ ¬(∀ p : Nat, p < b.pageCount → p ∈ b.received) := by
    rw [Bool.or_eq_true, Bool.not_eq_true', Bool.eq_false_iff, ne_eq, Binding.whole_iff]
  simp only [State.takeEnd, State.bindingOf_of_bound hbound hctx, hfrom, if_true, hfails]
  rfl

end Bound

/-- The ends of an attempt do not depend on the timeout that ran. -/
theorem State.attemptFails_of_timeoutStopped {t : State} (h : (s.timeoutStopped w).attemptFails t w i b) :
    s.attemptFails t w i b := by
  have hwin : (s.timeoutStopped w).win w = { s.win w with wait := .stopped } := State.win_modWin s w _
  unfold State.attemptFails at h ⊢
  rw [hwin] at h
  exact h

theorem State.refreshEnds_of_timeoutStopped {t : State} (h : (s.timeoutStopped w).refreshEnds t w i b a) :
    s.refreshEnds t w i b a := by
  have hwin : (s.timeoutStopped w).win w = { s.win w with wait := .stopped } := State.win_modWin s w _
  unfold State.refreshEnds at h ⊢
  rw [hwin] at h
  exact h

end Attempts

/-- Settles O41. -/
theorem sweepDataAndEndAreTaken : Obligations.SweepDataAndEndAreTaken := by
  intro s w src base id
  refine ⟨fun body hbody => ⟨fun hnot => ?_, fun hfollows hother => ?_, fun hfollows howner hsync => ?_,
    fun hfollows howner i b hbound hctx hnone => ?_⟩, fun i b a hfollows howner hsync hbound hctx hattempt hfrom hid =>
      ⟨fun p d => ⟨fun hp => ?_, fun hp => ?_⟩, fun n abandoned => ?_⟩⟩
  · rcases hbody with ⟨p, d, rfl⟩ | ⟨n, x, rfl⟩ <;> exact State.sweepChecked_of_not_followed hnot
  · rcases hbody with ⟨p, d, rfl⟩ | ⟨n, x, rfl⟩ <;> exact State.sweepChecked_of_foreign hfollows hother
  · rcases hbody with ⟨p, d, rfl⟩ | ⟨n, x, rfl⟩
    · rw [State.handleFor_sweepData hfollows howner, if_neg hsync]
    · rw [State.handleFor_sweepEnd hfollows howner, if_neg hsync]
  · rcases hbody with ⟨p, d, rfl⟩ | ⟨n, x, rfl⟩
    · rw [State.handleFor_sweepData hfollows howner, State.takePage_of_not hbound hctx (.inl hnone), ite_self]
    · rw [State.handleFor_sweepEnd hfollows howner, State.takeEnd_of_not hbound hctx hnone, ite_self]
  · rw [State.handleFor_sweepData hfollows howner, State.takePage_of_not hbound hctx (.inr hp), ite_self]
  · rw [State.handleFor_sweepData hfollows howner, if_pos hsync, State.takePage_of_match hbound hctx d hattempt hfrom hid hp]
    rfl
  · rw [State.handleFor_sweepEnd hfollows howner, if_pos hsync, State.takeEnd_of_match hbound hctx hattempt hfrom hid]
    intro t whole
    refine ⟨fun hfails hruns => ?_, fun hcomplete hwhole r rest hdeferred => ?_, fun hcomplete hwhole hdeferred hwaits => ?_⟩
    · have ht : t = (s.timeoutStopped w).failAttempt w := if_pos hfails
      obtain ⟨hkeptRm, hkeptRh⟩ := State.failAttempt_kept (s := s.timeoutStopped w) (w := w)
      rw [ht]
      exact ⟨State.attemptFails_of_timeoutStopped (State.failAttempt_fails (s := s.timeoutStopped w) hruns hbound hctx),
        hkeptRm, hkeptRh⟩
    · have ht : t = (s.timeoutStopped w).applyDeferred w b.deferred :=
        if_neg (not_or.2 ⟨by rw [hcomplete]; simp, not_not.2 hwhole⟩)
      rw [ht, hdeferred]
      rfl
    · have ht : t = (s.timeoutStopped w).applyDeferred w b.deferred :=
        if_neg (not_or.2 ⟨by rw [hcomplete]; simp, not_not.2 hwhole⟩)
      have hdone : t = (s.timeoutStopped w).completeRefresh w := by
        rw [ht, hdeferred]
        rfl
      obtain ⟨hkeptRm, hkeptRh⟩ := State.completeRefresh_kept (s := s.timeoutStopped w) (w := w)
      have hwaits' : ((s.timeoutStopped w).win w).contextWait = false := by
        rw [State.timeoutStopped, State.win_modWin]
        exact hwaits
      rw [hdone]
      exact ⟨State.refreshEnds_of_timeoutStopped (State.completeRefresh_ends (s := s.timeoutStopped w) hbound hctx hattempt hwaits'),
        hkeptRm, hkeptRh⟩

end Sys2Proof.Machine
end

section
/-!
The handling of frames at an idle local port: with no local cycle in progress it changes neither Local Port and Control nor the
replica's bytes (R28, R31, R34, R58).
-/

namespace Sys2Proof.Machine

/-- With no local cycle in `s`, `t` has its Local Port and Control and its replica. -/
def State.KeepsPort (s t : State) : Prop := s.lp.cycle = none → t.lp = s.lp ∧ t.rm.mem = s.rm.mem

namespace State.KeepsPort
variable {s t u : State}

theorem refl (s : State) : s.KeepsPort s := fun _ => ⟨rfl, rfl⟩

theorem trans (h : s.KeepsPort t) (h' : t.KeepsPort u) : s.KeepsPort u := fun hidle => by
  obtain ⟨hlp, hmem⟩ := h hidle
  obtain ⟨hlp', hmem'⟩ := h' (by rw [hlp]; exact hidle)
  exact ⟨hlp'.trans hlp, hmem'.trans hmem⟩

theorem of_eq (h : s.KeepsPort t) (hlp : u.lp = t.lp) (hmem : u.rm.mem = t.rm.mem) : s.KeepsPort u :=
  h.trans fun _ => ⟨hlp, hmem⟩

theorem quiet (h : s.KeepsPort t) (hquiet : t.Quiet u) (hmem : u.rm.mem = t.rm.mem) : s.KeepsPort u := h.of_eq hquiet.lp hmem

theorem ite {p : Prop} [Decidable p] (ht : s.KeepsPort t) (hu : s.KeepsPort u) : s.KeepsPort (if p then t else u) := by
  split
  · exact ht
  · exact hu

theorem modWin (h : s.KeepsPort t) (w : WinId) (f : Window → Window) : s.KeepsPort (t.modWin w f) := h.of_eq rfl rfl

theorem recordEvent (h : s.KeepsPort t) (f : EventFields) : s.KeepsPort (t.recordEvent f) := h.of_eq rfl rfl

theorem makeDue (h : s.KeepsPort t) (f : OwnerFrame) : s.KeepsPort (t.makeDue f) := h.of_eq rfl rfl

theorem abandonSweep (h : s.KeepsPort t) (w : WinId) : s.KeepsPort (t.abandonSweep w) := h.of_eq rfl rfl

theorem withdrawOwnerFrames (h : s.KeepsPort t) (p : Source → Bool) : s.KeepsPort (t.withdrawOwnerFrames p) := h.of_eq rfl rfl

theorem enterGap (h : s.KeepsPort t) (w : WinId) : s.KeepsPort (t.enterGap w) := h.quiet ((Quiet.refl t).enterGap w) (by simp)

theorem enterStale (h : s.KeepsPort t) (w : WinId) : s.KeepsPort (t.enterStale w) :=
  h.quiet ((Quiet.refl t).enterStale w) (by simp)

/-! ### What a local write's cycle alone can bring about -/

theorem finishTaken (h : s.KeepsPort t) (w : WinId) : s.KeepsPort (t.finishTaken w) :=
  h.trans fun hidle => by simp only [State.finishTaken, hidle, and_self]

theorem refuseTaken (h : s.KeepsPort t) (w : WinId) : s.KeepsPort (t.refuseTaken w) :=
  h.trans fun hidle => by simp only [State.refuseTaken, hidle, and_self]

theorem retestHeld (h : s.KeepsPort t) : s.KeepsPort t.retestHeld :=
  h.trans fun hidle => by simp only [State.retestHeld, hidle, and_self]

/-! ### Ownership -/

theorem discardPosts (h : s.KeepsPort t) (w : WinId) : s.KeepsPort (t.discardPosts w) := by
  unfold State.discardPosts
  split
  · exact h
  · exact h.of_eq rfl rfl

theorem becomeOwner (h : s.KeepsPort t) (w : WinId) (g : Byte) (q : Word) : s.KeepsPort (t.becomeOwner w g q) :=
  h.of_eq (by rw [(State.becomeOwner_touches (s := t) (w := w) (g := g) (q := q)).eq]) (by simp)

theorem becomeReturner (h : s.KeepsPort t) (w : WinId) (granter : Station) (g : Byte) (q : Word) :
    s.KeepsPort (t.becomeReturner w granter g q) := by
  unfold State.becomeReturner
  exact (h.quiet ((Quiet.refl t).exitClaiming w |>.leaveFollowed w) (by simp)).of_eq rfl rfl

theorem takeover (h : s.KeepsPort t) (w : WinId) : s.KeepsPort (t.takeover w) := by
  unfold State.takeover
  exact ((h.becomeOwner w _ _).makeDue _).recordEvent _

theorem yieldTo (h : s.KeepsPort t) (w : WinId) (owner : Station) (g : Byte) (src : Station) :
    s.KeepsPort (t.yieldTo w owner g src) := by
  unfold State.yieldTo
  exact ((((((((h.finishTaken w).discardPosts w).abandonSweep w).withdrawOwnerFrames _).modWin w _).enterGap w).recordEvent
    _).refuseTaken w).retestHeld

theorem judgeRival (h : s.KeepsPort t) (w : WinId) (g : Byte) (named src : Station) :
    s.KeepsPort (t.judgeRival w g named src) :=
  ite (h.yieldTo w named g src) (h.of_eq rfl rfl)

theorem enterGranting (h : s.KeepsPort t) (w : WinId) (claimant : Station) : s.KeepsPort (t.enterGranting w claimant) := by
  unfold State.enterGranting
  exact ((((h.finishTaken w).modWin w _).abandonSweep w).withdrawOwnerFrames _).refuseTaken w

theorem handleClaim (h : s.KeepsPort t) (w : WinId) (src : Station) : s.KeepsPort (t.handleClaim w src) :=
  ite (ite (ite h (h.of_eq rfl rfl)) (h.enterGranting w src)) h

theorem endClaim (h : s.KeepsPort t) (w : WinId) : s.KeepsPort (t.endClaim w) :=
  (h.quiet ((Quiet.refl t).exitClaiming w) (by simp)).of_eq rfl rfl

theorem handleDeny (h : s.KeepsPort t) (w : WinId) (src target : Station) : s.KeepsPort (t.handleDeny w src target) :=
  ite ((h.endClaim w).of_eq rfl rfl) h

/-- A followed window that takes over a new owner and generation (R148, R151). -/
theorem followNewOwner (h : s.KeepsPort t) (w : WinId) (named src : Station) (g : Byte) (q : Word) :
    s.KeepsPort (((t.adopt w named g).loseClaim w named).checkNextSeq w src q) := by
  have hadopted : s.KeepsPort (t.adopt w named g) := h.of_eq rfl rfl
  have hlost : s.KeepsPort ((t.adopt w named g).loseClaim w named) := ite ((hadopted.endClaim w).of_eq rfl rfl) hadopted
  exact hlost.quiet ((Quiet.refl _).checkNextSeq w src q) (by simp)

theorem takeGrant (h : s.KeepsPort t) (w : WinId) (src : Station) (g : Byte) (q : Word) (returned : Bool) :
    s.KeepsPort (t.takeGrant w src g q returned) :=
  ite ((h.becomeOwner w g q).of_eq rfl rfl) (ite ((h.becomeOwner w g q).of_eq rfl rfl) (h.becomeReturner w src g q))

theorem handleGrantHere (h : s.KeepsPort t) (w : WinId) (src : Station) (g : Byte) (q : Word) (returned : Bool) :
    s.KeepsPort (t.handleGrantHere w src g q returned) :=
  ite (ite (h.of_eq rfl rfl) (h.of_eq rfl rfl))
    (ite (takeGrant (t := t.adopt w t.station g) (h.of_eq rfl rfl) w src g q returned) (h.of_eq rfl rfl))

theorem handleGrantElsewhere (h : s.KeepsPort t) (w : WinId) (src grantee : Station) (g : Byte) (q : Word) :
    s.KeepsPort (t.handleGrantElsewhere w src grantee g q) :=
  ite (h.judgeRival w g grantee src) (ite (h.followNewOwner w grantee src g q) (h.of_eq rfl rfl))

theorem handleTakeover (h : s.KeepsPort t) (w : WinId) (src : Station) (g : Byte) (q : Word) :
    s.KeepsPort (t.handleTakeover w src g q) :=
  ite (h.judgeRival w g src src) (ite (h.followNewOwner w src src g q) (h.of_eq rfl rfl))

/-! ### Refresh -/

theorem failAttempt (h : s.KeepsPort t) (w : WinId) : s.KeepsPort (t.failAttempt w) := by
  have heq := (State.attemptReleased_touches (s := t) (w := w)).eq
  have hport : (t.attemptReleased w).lp = t.lp := by rw [heq]
  have hmem : (t.attemptReleased w).rm.mem = t.rm.mem := by rw [heq]
  rw [State.failAttempt_eq]
  have hreleased : s.KeepsPort (t.attemptReleased w) := h.of_eq hport hmem
  have hrecorded := hreleased.recordEvent (t.failureEvent w ((t.bindingOf w).bind (·.attempt)))
  generalize (t.attemptReleased w).recordEvent _ = u at hrecorded
  unfold State.afterFailure
  exact ite (hrecorded.enterGap w) (ite ((hrecorded.modWin w _).takeover w) ((hrecorded.enterStale w).recordEvent _))

theorem takeEnd (h : s.KeepsPort t) (w : WinId) (src : Station) (id : Byte) (abandoned : Bool) :
    s.KeepsPort (t.takeEnd w src id abandoned) := by
  unfold State.takeEnd
  split
  · exact h
  · have hstopped : s.KeepsPort (t.modWin w fun x => { x with wait := .stopped }) := h.of_eq rfl rfl
    exact ite (ite (hstopped.failAttempt w) (hstopped.quiet ((Quiet.refl _).applyDeferred w _) (by simp))) h

/-! ### Handling -/

theorem ownerChecked (h : s.KeepsPort t) (w : WinId) (src : Station) (g : Byte) (isUpdate : Bool) {k : State → Bool → State}
    (hk : ∀ (u : State) (b : Bool), u.KeepsPort (k u b)) : s.KeepsPort (t.ownerChecked w src g isUpdate k) := by
  simp only [State.ownerChecked]
  have hadopted : s.KeepsPort (t.adopt w src g) := h.of_eq rfl rfl
  have hrestarted : s.KeepsPort ((t.adopt w src g).restartClaim w src) :=
    hadopted.quiet ((Quiet.refl _).restartClaim w src) (by simp)
  split
  · exact ite (h.trans (hk t _)) (h.of_eq rfl rfl)
  · exact ite (h.judgeRival _ _ _ _) (ite ((ite hrestarted hadopted).trans (hk _ _)) (h.of_eq rfl rfl))
  all_goals exact h.of_eq rfl rfl

theorem shareOnly (h : s.KeepsPort t) (w : WinId) (src : Station) {k : State → State} (hk : s.KeepsPort (k t)) :
    s.KeepsPort (t.shareOnly w src k) := by
  unfold State.shareOnly
  split
  · exact hk
  all_goals exact h.of_eq rfl rfl

theorem sweepChecked (h : s.KeepsPort t) (w : WinId) (src : Station) {k : State → State} (hk : s.KeepsPort (k t)) :
    s.KeepsPort (t.sweepChecked w src k) :=
  ite (ite hk (h.of_eq rfl rfl)) h

theorem answerRequest (h : s.KeepsPort t) (w : WinId) (src : Station) (n : Byte) : s.KeepsPort (t.answerRequest w src n) :=
  ite (ite (h.of_eq rfl rfl) (h.of_eq rfl rfl)) h

theorem handleFor (h : s.KeepsPort t) (w : WinId) (src : Station) (body : Body) : s.KeepsPort (t.handleFor w src body) := by
  cases body with
  | update b g rs =>
    exact h.ownerChecked w src g true fun u _ => (refl u).quiet ((Quiet.refl u).takeRecords _ _ _ _ _) (by simp)
  | mark b g last =>
    exact h.ownerChecked w src g false fun u _ => (refl u).quiet ((Quiet.refl u).takeMark _ _ _ _) (by simp)
  | refreshReq b n => exact (h.answerRequest w src n).quiet (u := (t.answerRequest w src n).suppress w n) ((Quiet.refl _).suppress w n) (by simp)
  | sweepBegin b g i sn n o => exact h.sweepChecked w src (h.quiet ((Quiet.refl t).followBegin _ _ _ _ _ _) (by simp))
  | sweepData b i p d => exact h.sweepChecked w src (ite (h.quiet ((Quiet.refl t).takePage _ _ _ _ _) (by simp)) h)
  | sweepEnd b i n a => exact h.sweepChecked w src (ite (h.takeEnd w src i a) h)
  | claim b => exact h.shareOnly w src (h.handleClaim w src)
  | grant b g q grantee r =>
    exact h.shareOnly w src (ite (h.handleGrantHere w src g q r) (h.handleGrantElsewhere w src grantee g q))
  | deny b target => exact h.shareOnly w src (h.handleDeny w src target)
  | takeover b g q => exact h.shareOnly w src (h.handleTakeover w src g q)
  | message d u k sk p => exact h

theorem handleMessage (h : s.KeepsPort t) (src : Station) (d u k sk : Byte) (p : List Byte) :
    s.KeepsPort (t.handleMessage src d u k sk p) := by
  unfold State.handleMessage State.acceptMessage
  exact ite (ite (ite (h.of_eq rfl rfl) (h.of_eq rfl rfl)) (h.of_eq rfl rfl)) h

theorem settleGrants (h : s.KeepsPort t) : s.KeepsPort t.settleGrants := h.quiet (Quiet.refl t).settleGrants (by simp)

theorem handleFrame (h : s.KeepsPort t) (f : Frame) : s.KeepsPort (t.handleFrame f) := by
  unfold State.handleFrame
  split
  · exact h.handleMessage _ _ _ _ _ _
  all_goals
    split
    · exact h
    · exact (h.handleFor _ _ _).settleGrants

theorem popHold (h : s.KeepsPort t) : s.KeepsPort t.popHold := h.of_eq rfl rfl

theorem runHold (h : s.KeepsPort t) (n : Nat) : s.KeepsPort (t.runHold n) := by
  induction n generalizing t with
  | zero => exact h
  | succ n ih =>
    simp only [State.runHold]
    split
    · split
      · exact ih (h.handleFrame _).popHold
      · exact h.handleFrame _
    · exact h

theorem resumeHold (h : s.KeepsPort t) : s.KeepsPort t.resumeHold := h.runHold _

theorem finishFrame (h : s.KeepsPort t) : s.KeepsPort t.finishFrame := h.popHold.settleGrants.resumeHold

theorem continueFrame (h : s.KeepsPort t) : s.KeepsPort t.continueFrame := by
  unfold State.continueFrame
  split
  · exact h.finishFrame
  · exact h

end State.KeepsPort

end Sys2Proof.Machine
end

section
/-!
REFRESH, and the grants of the internal writer: the write made, and what the frame in handling goes on to (R28, R30, R80, R84, R95,
R96, R117, R121, R122).
-/

namespace Sys2Proof.Machine

/-! ### REFRESH (R95, R96) -/

section Refresh
variable {s : State} (hport : s.idlePort)
include hport

theorem exec_refresh_of_namesNone (hnone : s.namesNone s.lp.args[0]) :
    exec .refresh s = .next (s.answersRefused 0x0001 .badWindow) := by
  have harg : s.enabledWindowArg (s.arg 0) = none := State.enabledWindowArg_of_namesNone hnone
  rw [exec, execRefresh, if_pos (State.portFree_of_idlePort hport), harg, ← State.refuse_eq_answersRefused]

theorem exec_refresh_of_names {w : WinId} (hnames : s.names s.lp.args[0] w) :
    exec .refresh s = .next (if (s.win w).owned = true then s.answersRefused 0x0001 .wrongRole
      else if (s.win w).sync = .refreshing then s.answersRefused 0x0001 .wrongState
      else (s.refreshWindow w).answersDone 0x0001) := by
  have harg : s.enabledWindowArg (s.arg 0) = some w := State.enabledWindowArg_of_names hnames
  rw [exec, execRefresh, if_pos (State.portFree_of_idlePort hport), harg]
  simp only [State.refuse_eq_answersRefused, State.done_eq_answersDone]

theorem State.refreshWindow_lp (w : WinId) : (s.refreshWindow w).lp = s.lp := by
  have hquiet : s.Quiet (((s.settleWriter w).modWin w fun x => { x with retry := 0 }).enterGap w) :=
    (((State.Quiet.refl s).settleWriter w).modWin (by simp +contextual)).enterGap w
  obtain ⟨hlp, -⟩ := (State.KeepsPort.refl _).resumeHold (by rw [hquiet.lp]; exact hport.2)
  exact hlp.trans hquiet.lp

end Refresh

theorem State.owned_of_followed {s : State} {w : WinId} (h : s.follows w) : ¬(s.win w).owned = true := by
  rw [Window.owned_iff]
  rcases h with h | h <;> rw [h] <;> simp

theorem State.refreshWindow_of_no_work {s : State} {w : WinId} (hother : ∀ k : Work, s.rh.work = some k → k.window ≠ w)
    (hempty : s.rh.work = none → s.rh.slots = []) :
    s.refreshWindow w = (s.modWin w fun x => { x with retry := 0 }).enterGap w := by
  have hsettled : s.settleWriter w = s := by
    cases hwork : s.rh.work with
    | none => exact State.settleWriter_of_none hwork
    | some k => exact State.settleWriter_of_other hwork (hother k hwork)
  have hrh : ((s.modWin w fun x => { x with retry := 0 }).enterGap w).rh = s.rh := by
    rw [((State.TouchesFollower.refl _).enterGap w).eq]
    rfl
  rw [State.refreshWindow, hsettled]
  cases hwork : s.rh.work with
  | none => exact State.resumeHold_of_empty (by rw [hrh]; exact hempty hwork)
  | some k => exact State.runHold_of_work (by rw [hrh, hwork]; simp) _

/-- Settles O48. -/
theorem refreshCommand : Obligations.RefreshCommand := by
  intro s hport
  refine ⟨exec_refresh_of_namesNone hport, fun w hnames => ⟨fun howned => ?_, fun hfollows => ⟨fun hsync => ?_, fun hsync =>
    ⟨?_, fun hother hempty => ?_⟩⟩⟩⟩
  · rw [exec_refresh_of_names hport hnames, if_pos (Window.owned_iff.2 howned)]
  · rw [exec_refresh_of_names hport hnames, if_neg (State.owned_of_followed hfollows), if_pos hsync]
  · rw [exec_refresh_of_names hport hnames, if_neg (State.owned_of_followed hfollows), if_neg hsync]
    refine ⟨_, rfl, ?_⟩
    rw [State.answersDone, State.refreshWindow_lp hport]
    rfl
  · rw [exec_refresh_of_names hport hnames, if_neg (State.owned_of_followed hfollows), if_neg hsync,
      State.refreshWindow_of_no_work hother hempty]
    have hwin := State.enterGap_win (s.modWin w fun x => { x with retry := 0 }) w
    have hctx (i : Fin 2) := State.enterGap_ctx (s := s.modWin w fun x => { x with retry := 0 }) (w := w) i
    obtain ⟨tx, cs, ws, hframe⟩ := ((State.TouchesFollower.refl s).modWin w fun x => { x with retry := 0 }).enterGap w
    rw [hframe] at hwin hctx ⊢
    refine ⟨_, rfl, ?_, fun i hi => ?_, rfl⟩
    · refine hwin.trans ?_
      rw [State.win_modWin]
      rfl
    · exact (hctx i).trans (if_pos hi)

/-! ### A write ended: the frame goes on (R28, R30, R34) -/

theorem Arbiter.release_serves {b : Arbiter} {r : Requester} (h : ∃ q ∈ b.waiting, q.who = r) :
    b.release.granted = some r ∨ ∃ q ∈ b.release.waiting, q.who = r := by
  cases hchoice : b.choose with
  | none => exact .inr (by rwa [Arbiter.release_of_none hchoice])
  | some r' =>
    rw [Arbiter.release_of_choice hchoice]
    by_cases hsame : r' = r
    · exact .inl (congrArg some hsame)
    · obtain ⟨q, hq, hwho⟩ := h
      exact .inr ⟨q, List.mem_filter.2 ⟨hq, by rw [hwho]; exact decide_eq_true (Ne.symm hsame)⟩, hwho⟩

theorem Arbiter.request_waits {b : Arbiter} {g : Requester} (h : b.granted = some g) (r : Requester) (n : Nat) :
    ∃ q ∈ (b.request r n).waiting, q.who = r := by
  rw [Arbiter.request_of_granted h]
  exact ⟨{ who := r, placed := n }, List.mem_append_right _ (List.mem_singleton_self _), rfl⟩

section Continue
variable {s : State}

theorem State.continueFrame_of_work (h : s.rh.work ≠ none) : s.continueFrame = s := by
  cases hwork : s.rh.work with
  | none => exact absurd hwork h
  | some k => simp only [State.continueFrame, hwork]

/-- The last frame of the hold has ended. -/
theorem State.continueFrame_of_last (h : s.rh.work = none) (hslots : s.rh.slots.length ≤ 1) :
    s.continueFrame = s.popHold.settleGrants := by
  have htail : s.rh.slots.tail = [] := List.length_eq_zero_iff.1 (by rw [List.length_tail]; omega)
  have hempty : s.popHold.settleGrants.rh.slots = [] := by
    rw [State.settleGrants_frame]
    exact htail
  simp only [State.continueFrame, h, State.finishFrame, State.resumeHold_of_empty hempty]

theorem State.continueFrame_mem (h : s.lp.cycle = none ∨ s.rh.slots.length ≤ 1) : s.continueFrame.rm.mem = s.rm.mem := by
  rcases h with hidle | hslots
  · exact ((State.KeepsPort.refl s).continueFrame hidle).2
  · by_cases hwork : s.rh.work = none
    · rw [State.continueFrame_of_last hwork hslots, State.settleGrants_mem]
      rfl
    · rw [State.continueFrame_of_work hwork]

theorem State.settleGrants_of_none_granting (h : ∀ v : WinId, (s.win v).ownership ≠ .granting) : s.settleGrants = s := by
  have hnone : allWindows.filter s.grantBecomesDue = [] :=
    List.filter_eq_nil_iff.2 fun v _ hdue => h v (State.granting_of_grantBecomesDue hdue)
  rw [State.settleGrants_eq, hnone, List.map_nil, List.append_nil]

/-- What follows a write grant of the frame in handling: from the state `u` behind the released grant. -/
theorem State.continueFrame_mem_of_quiet {u : State} (hquiet : s.Quiet u) (h : s.lp.cycle = none ∨ s.rh.slots.length ≤ 1) :
    u.continueFrame.rm.mem = u.rm.mem :=
  State.continueFrame_mem (h.imp (fun hidle => by rw [hquiet.lp]; exact hidle) hquiet.slots.trans)

/-- The last frame of the hold has ended, and no window is GRANTING. -/
theorem State.continueFrame_of_alone {u : State} (hquiet : s.Quiet u) (hwork : u.rh.work = none)
    (hslots : s.rh.slots.length ≤ 1) (hgranting : ∀ v : WinId, (s.win v).ownership ≠ .granting) :
    u.continueFrame = { u with rh := { slots := [], work := none } } := by
  have hlength : u.rh.slots.length ≤ 1 := hquiet.slots.trans hslots
  have htail : u.rh.slots.tail = [] := List.length_eq_zero_iff.1 (by rw [List.length_tail]; omega)
  have hnone (v : WinId) : (u.popHold.win v).ownership ≠ .granting := by
    rw [hquiet.popHold.ownership v]
    exact hgranting v
  rw [State.continueFrame_of_last hwork hlength, State.settleGrants_of_none_granting hnone, State.popHold, htail]

theorem State.granted_of {r : Requester} (h : s.rm.arb.granted = some r) : s.granted r = true := decide_eq_true h

end Continue

end Sys2Proof.Machine
end

section
/-!
The three grants of the internal writer (R80, R84, R117, R121, R122).
-/

namespace Sys2Proof.Machine

/-! ### RECORD_WRITE_GRANT (R80, R84) -/

section Record
variable {s : State} {w : WinId} {src : Station} {r : PostRecord} {rest : List PostRecord} {applied adopted : Bool}

/-- The record stored and its number counted, with nothing waiting. -/
def State.recordStored (s : State) (w : WinId) (r : PostRecord) : State :=
  { s with
    rm := { s.rm with mem := Memory.writeBytes s.rm.mem ((s.win w).localAddr r.offset.toNat) r.data },
    windows := s.windows.set w { s.win w with expected := (s.win w).expected.map (· + 1), behind := 0 },
    rh := { s.rh with work := none } }

theorem exec_recordWriteGrant (hwork : s.rh.work = some (.record w src r rest applied adopted))
    (hgranted : s.rm.arb.granted = some .writer) :
    exec .recordWriteGrant s =
      .next ((s.recordStored w r).takeRecords w src true adopted rest).releaseGrant.continueFrame := by
  rw [exec, execRecordWriteGrant, hwork]
  simp only [State.granted_of hgranted, if_true]
  rfl

theorem State.recordStored_win : (s.recordStored w r).win w =
    { s.win w with expected := (s.win w).expected.map (· + 1), behind := 0 } :=
  State.win_modWin s w fun x => { x with expected := x.expected.map (· + 1), behind := 0 }

theorem State.recordStored_quiet : s.Quiet (s.recordStored w r) := by
  have hwritten : s.Quiet ((s.writerEffect (.record w 0 r [] false false)).setWork none) :=
    ((State.Quiet.refl s).writerEffect _).setWork none
  exact hwritten

/-- The note after the frame's last record. -/
theorem State.recordStored_noted : (s.recordStored w r).noted w = { s with
    rm := { s.rm with mem := Memory.writeBytes s.rm.mem ((s.win w).localAddr r.offset.toNat) r.data },
    windows := s.windows.set w { s.win w with
      expected := (s.win w).expected.map (· + 1), behind := 0, updated := true,
      updateCount := min 255 ((s.win w).updateCount + 1) },
    rh := { s.rh with work := none },
    en := if (s.win w).noteOccurs then
        { s.en with pending := s.en.pending ||| (1 <<< (s.win w).desc.notifyVector.toNat) } else s.en } := by
  have hnote : ((s.recordStored w r).win w).noteOccurs = (s.win w).noteOccurs := by
    rw [State.recordStored_win]
    rfl
  rw [State.noted, hnote, State.recordStored_win, State.recordStored, Vector.set_set]

end Record

/-- Settles O34. -/
theorem recordsAreApplied : Obligations.RecordsAreApplied := by
  intro s w src r rest applied adopted hwork hgranted hlength hwf hroom
  refine ⟨_, exec_recordWriteGrant hwork hgranted, ?_, fun hrest hslots hgranting => ?_,
    fun n more e hrest hfollows hsync hexpected hseq hfits => ?_⟩
  · have hquiet : s.Quiet ((s.recordStored w r).takeRecords w src true adopted rest).releaseGrant :=
      (State.recordStored_quiet.takeRecords w src true adopted rest).releaseGrant
    have hmem : ((s.recordStored w r).takeRecords w src true adopted rest).releaseGrant.rm.mem = (s.recordStored w r).rm.mem := by
      simp
    rw [State.continueFrame_mem_of_quiet hquiet hroom, hmem]
    exact Memory.stored_writeBytes _ hwf (by omega)
  · subst hrest
    have hlast : ((s.recordStored w r).takeRecords w src true adopted []).releaseGrant =
        ((s.recordStored w r).noted w).releaseGrant := by rw [State.takeRecords_nil, if_pos rfl]
    have hquiet : s.Quiet ((s.recordStored w r).noted w).releaseGrant :=
      hlast ▸ (State.recordStored_quiet.takeRecords w src true adopted []).releaseGrant
    rw [hlast, State.continueFrame_of_alone hquiet rfl hslots hgranting, State.recordStored_noted]
    rfl
  · subst hrest
    have hwin := State.recordStored_win (s := s) (w := w) (r := r)
    rw [hexpected, Option.map_some] at hwin
    have hnext : (s.recordStored w r).takeRecords w src true adopted (n :: more) =
        ((s.recordStored w r).setWork (some (.record w src n more true adopted))).requestGrant .writer :=
      State.takeRecords_of_inOrder (e := e + 1) (by rw [State.follows, hwin]; exact hfollows) (by rw [hwin]; exact hsync) (by rw [hwin])
        hseq (by rw [hwin]; exact hfits) more
    rw [hnext, State.continueFrame_of_work (by simp [State.releaseGrant, State.requestGrant, State.requestIn])]
    exact ⟨rfl, hwin, rfl, Arbiter.release_serves (Arbiter.request_waits hgranted .writer _)⟩

/-! ### PAGE_WRITE_GRANT (R117) -/

section Page
variable {s : State} {w : WinId} {i : Nat} {data : List Byte}

/-- The page stored and its index received, with nothing waiting. -/
def State.pageStored (s : State) (w : WinId) (i : Nat) (data : List Byte) : State :=
  (s.writerEffect (.page w i data)).setWork none

theorem exec_pageWriteGrant (hwork : s.rh.work = some (.page w i data)) (hgranted : s.rm.arb.granted = some .writer) :
    exec .pageWriteGrant s = .next (s.pageStored w i data).releaseGrant.continueFrame := by
  rw [exec, execPageWriteGrant, hwork]
  simp only [State.granted_of hgranted, if_true]
  rfl

theorem State.pageStored_quiet : s.Quiet (s.pageStored w i data) := ((State.Quiet.refl s).writerEffect _).setWork none

theorem State.modBinding_frame (t : State) (w : WinId) (g : Binding → Binding) :
    t.modBinding w g = { t with contexts := (t.modBinding w g).contexts } := by
  unfold State.modBinding
  cases t.boundCtx w with
  | none => rfl
  | some j => cases hctx : t.ctx j <;> simp only [hctx, State.setCtx]

theorem State.pageStored_eq : s.pageStored w i data = { s with
    rm := { s.rm with mem := Memory.writeBytes s.rm.mem ((s.win w).localAddr (i * 256)) data },
    rh := { s.rh with work := none }, contexts := (s.pageStored w i data).contexts } := by
  have hwritten := State.modBinding_frame (s.writeReplica ((s.win w).localAddr (i * 256)) data) w fun b =>
    { b with received := if i ∈ b.received then b.received else b.received ++ [i] }
  rw [State.pageStored, State.writerEffect, hwritten]
  rfl

theorem State.pageStored_contexts {c : Fin 2} {b : Binding} (hbound : s.boundCtx w = some c) (hctx : s.ctx c = .bound b) :
    (s.pageStored w i data).contexts = s.contexts.set c
      (.bound { b with received := if i ∈ b.received then b.received else b.received ++ [i] }) := by
  rw [State.pageStored, State.writerEffect,
    State.modBinding_of_bound (s := s.writeReplica ((s.win w).localAddr (i * 256)) data) hbound hctx]
  rfl

end Page

/-! ### DEFERRED_RECORD_GRANT (R121, R122) -/

section Deferred
variable {s : State} {w : WinId} {r : PostRecord} {rest : List PostRecord}

/-- The deferred record stored, with nothing waiting. -/
def State.deferredStored (s : State) (w : WinId) (r : PostRecord) : State :=
  { s with
    rm := { s.rm with mem := Memory.writeBytes s.rm.mem ((s.win w).localAddr r.offset.toNat) r.data },
    rh := { s.rh with work := none } }

theorem exec_deferredRecordGrant (hwork : s.rh.work = some (.deferred w r rest)) (hgranted : s.rm.arb.granted = some .writer) :
    exec .deferredRecordGrant s = .next ((s.deferredStored w r).applyDeferred w rest).releaseGrant.continueFrame := by
  rw [exec, execDeferredRecordGrant, hwork]
  simp only [State.granted_of hgranted, if_true]
  rfl

theorem State.deferredStored_quiet : s.Quiet (s.deferredStored w r) := by
  have hwritten : s.Quiet ((s.writerEffect (.deferred w r [])).setWork none) :=
    ((State.Quiet.refl s).writerEffect _).setWork none
  exact hwritten

/-- The end of a refresh reads the line, the windows and the contexts alone. -/
theorem State.refreshEnds_congr {u t t' : State} {i : Fin 2} {b : Binding} {a : Attempt} (h : u.refreshEnds t' w i b a)
    (hwin : u.windows = s.windows) (hli : u.li = s.li) (hwin' : t.windows = t'.windows) (hctx' : t.contexts = t'.contexts) :
    s.refreshEnds t w i b a := by
  have hdelay : u.newDelay = s.newDelay := by rw [State.newDelay, hli, ← State.newDelay]
  have hctx : t.ctx i = t'.ctx i := by rw [State.ctx, hctx', ← State.ctx]
  unfold State.refreshEnds at h ⊢
  rw [hdelay, State.win_eq_of_windows hwin] at h
  rw [State.win_eq_of_windows hwin', hctx]
  exact h

end Deferred

/-- Settles O35. -/
theorem refreshWritesAreMade : Obligations.RefreshWritesAreMade := by
  refine ⟨fun s w i data hwork hgranted hlength hwf hroom => ⟨_, exec_pageWriteGrant hwork hgranted, ?_,
      fun hslots hgranting => ⟨?_, fun c b hbound hctx => ?_⟩⟩,
    fun s w r rest hwork hgranted hlength hwf hroom => ⟨_, exec_deferredRecordGrant hwork hgranted, ?_,
      fun n more hrest => ?_, fun c b a hrest hslots hbound hctx hattempt hwaits => ?_⟩⟩
  · have hquiet : s.Quiet (s.pageStored w i data).releaseGrant := State.pageStored_quiet.releaseGrant
    have hmem : (s.pageStored w i data).releaseGrant.rm.mem =
        Memory.writeBytes s.rm.mem ((s.win w).localAddr (i * 256)) data := by
      rw [State.pageStored_eq]
      rfl
    rw [State.continueFrame_mem_of_quiet hquiet hroom, hmem]
    exact Memory.stored_writeBytes _ hwf (by omega)
  · rw [State.continueFrame_of_alone State.pageStored_quiet.releaseGrant rfl hslots hgranting, State.pageStored_eq]
    rfl
  · rw [State.continueFrame_of_alone State.pageStored_quiet.releaseGrant rfl hslots hgranting]
    have hcontexts := State.pageStored_contexts (i := i) (data := data) hbound hctx
    have hread (j : Fin 2) : (s.pageStored w i data).ctx j = if j = c then
        .bound { b with received := if i ∈ b.received then b.received else b.received ++ [i] } else s.ctx j := by
      rw [State.ctx, hcontexts]
      exact State.ctx_setCtx_eq s c j _
    refine ⟨fun j hj => (hread j).trans (if_neg hj), _, (hread c).trans (if_pos rfl), fun p => ?_⟩
    by_cases hi : i ∈ b.received
    · rw [if_pos hi]
      exact ⟨.inl, fun hp => hp.elim id fun hpi => hpi ▸ hi⟩
    · rw [if_neg hi, List.mem_append, List.mem_singleton]
  · have hquiet : s.Quiet ((s.deferredStored w r).applyDeferred w rest).releaseGrant :=
      (State.deferredStored_quiet.applyDeferred w rest).releaseGrant
    have hmem : ((s.deferredStored w r).applyDeferred w rest).releaseGrant.rm.mem =
        Memory.writeBytes s.rm.mem ((s.win w).localAddr r.offset.toNat) r.data := by
      rw [State.releaseGrant_mem, State.applyDeferred_mem]
      rfl
    rw [State.continueFrame_mem_of_quiet hquiet hroom, hmem]
    exact Memory.stored_writeBytes _ hwf (by omega)
  · subst hrest
    rw [State.continueFrame_of_work (by simp [State.applyDeferred, State.releaseGrant, State.requestGrant, State.requestIn])]
    exact ⟨rfl, rfl⟩
  · subst hrest
    have hends : (s.deferredStored w r).refreshEnds ((s.deferredStored w r).completeRefresh w) w c b a :=
      State.completeRefresh_ends (s := s.deferredStored w r) hbound hctx hattempt hwaits
    obtain ⟨-, hrh⟩ := State.completeRefresh_kept (s := s.deferredStored w r) (w := w)
    have hwork' : ((s.deferredStored w r).completeRefresh w).releaseGrant.rh = (s.deferredStored w r).rh := hrh
    have htail : s.rh.slots.tail = [] := List.length_eq_zero_iff.1 (by rw [List.length_tail]; omega)
    rw [State.applyDeferred, State.continueFrame_of_last (by rw [hwork']; rfl) (by rw [hwork']; exact hslots),
      State.settleGrants_eq]
    refine ⟨?_, State.refreshEnds_congr hends rfl rfl rfl rfl⟩
    rw [State.popHold_rh, hwork']
    exact congrArg (fun l => ({ slots := l, work := none } : ReceiveHold)) htail

end Sys2Proof.Machine
end

section
/-!
A GRANT that names this station at a follower (R103, R129, R137, R144 to R147).
-/

namespace Sys2Proof.Machine

/-! ### A sweep asked for (R103) -/

theorem SweepEngine.ask_of_current {e : SweepEngine} {w : WinId} {c : Sweep} (o : Origin) (h : e.current = some c)
    (hw : c.window = w) : e.ask w o = { e with current := some { c with again := c.again || c.abandon } } := by
  rw [SweepEngine.ask, SweepEngine.currentOf_of_window h hw]
  cases habandon : c.abandon with
  | false =>
    simp only [habandon, Bool.false_eq_true, if_false, Bool.or_false]
    rw [← habandon, ← h]
  | true => simp only [habandon, if_true, Bool.or_true]

theorem SweepEngine.ask_of_other {e : SweepEngine} {w : WinId} (o : Origin) (h : ∀ c ∈ e.current, c.window ≠ w) :
    e.ask w o = if ∃ p ∈ e.queue, p.1 = w then e else e.withQueue (e.queue ++ [(w, o)]) := by
  rw [SweepEngine.ask, SweepEngine.currentOf_of_other h, SweepEngine.add_eq]
  simp only [SweepEngine.queued_iff]

theorem State.asksSweep_of_ask {s t : State} {w : WinId} {o : Origin} (h : t.se = s.se.ask w o) : s.asksSweep t w o :=
  ⟨fun _ hcurrent hw => h.trans (SweepEngine.ask_of_current o hcurrent hw),
    fun hother => h.trans (SweepEngine.ask_of_other o hother)⟩

/-! ### Leaving FOLLOWER and CLAIMING, in the statements' words -/

section Leaves
variable {s t : State} {w : WinId}

theorem State.exitClaiming_newDelay : (s.exitClaiming w).newDelay = s.newDelay :=
  ((State.TouchesOwnership.of_follower (State.TouchesFollower.refl s)).exitClaiming w).newDelay

/-- A state that agrees with the window's leaving, but for the window itself. -/
theorem State.leavesFollowed_of_left (htx : t.li.tx = ((s.exitClaiming w).leaveFollowed w).li.tx)
    (hdue : t.ownerDue = ((s.exitClaiming w).leaveFollowed w).ownerDue)
    (hcontexts : t.contexts = ((s.exitClaiming w).leaveFollowed w).contexts)
    (hwin : ∀ v : WinId, v ≠ w → t.win v = ((s.exitClaiming w).leaveFollowed w).win v) : s.leavesFollowed t w := by
  have hctx (i : Fin 2) : t.ctx i = if s.reservedCtx w = some i ∨ s.boundCtx w = some i then .free else s.ctx i := by
    have hsame : (s.exitClaiming w).ctx i = s.ctx i := by rw [State.ctx, State.exitClaiming_contexts, ← State.ctx]
    rw [State.ctx, hcontexts, ← State.ctx, State.leaveFollowed_ctx, State.exitClaiming_reservedCtx, State.exitClaiming_boundCtx,
      hsame]
  have hothers (v : WinId) (hv : v ≠ w) : t.win v =
      if (s.win v).contextWait = true ∧ (s.reservedCtx w ≠ none ∨ s.boundCtx w ≠ none) then
        { s.win v with contextWait := false, wait := s.newDelay } else s.win v := by
    rw [hwin v hv, State.leaveFollowed_win_of_ne hv, State.exitClaiming_win_of_ne hv, State.exitClaiming_reservedCtx,
      State.exitClaiming_boundCtx, State.exitClaiming_newDelay]
  unfold State.leavesFollowed
  intro claiming frees
  refine ⟨?_, ?_, fun i hi => (hctx i).trans (if_pos hi), fun i hreserved hbound => (hctx i).trans (if_neg (not_or.2 ⟨hreserved, hbound⟩)),
    fun v hv hwaits hfrees => (hothers v hv).trans (if_pos ⟨hwaits, hfrees⟩), fun v hv hnot => (hothers v hv).trans (if_neg ?_)⟩
  · have hleft := State.withdraws_trans (State.exitClaiming_withdraws (s := s) (w := w))
      (State.leaveFollowed_withdraws (s := s.exitClaiming w) (w := w))
    rw [State.exitClaiming_reservedCtx] at hleft
    exact State.withdraws_tx_congr hleft rfl htx
  · rw [hdue, State.leaveFollowed_touches.eq]
    exact State.exitClaiming_ownerDue
  · rintro ⟨hwaits, hfrees⟩
    rcases hnot with h | h
    · rw [h] at hwaits; cases hwaits
    · exact h hfrees

/-- What leaves FOLLOWER from a newly adopted owner and generation leaves it from before. -/
theorem State.leavesFollowed_of_adopt {named : Station} {g : Byte} (h : (s.adopt w named g).leavesFollowed t w) :
    s.leavesFollowed t w := by
  have hself : ((s.adopt w named g).win w).ownership = (s.win w).ownership := by rw [State.adopt, State.win_modWin]
  have hothers (v : WinId) (hv : v ≠ w) : (s.adopt w named g).win v = s.win v := State.win_modWin_of_ne s _ hv
  obtain ⟨htx, hdue, hfreed, hkept, hwaiting, hrest⟩ := h
  simp only [hself] at htx hdue
  refine ⟨htx, hdue, hfreed, hkept, fun v hv hwaits hfrees => ?_, fun v hv hnot => ?_⟩
  · have hv' := hwaiting v hv (by rw [hothers v hv]; exact hwaits) hfrees
    rw [hothers v hv] at hv'
    exact hv'
  · have hv' := hrest v hv (by rw [hothers v hv]; exact hnot)
    rw [hothers v hv] at hv'
    exact hv'

end Leaves

/-! ### The check of R129 -/

theorem Window.passes_iff {x : Window} {g : Byte} {named : Station} : x.passes g named = true ↔
    (1 ≤ (g - x.generation).toNat ∧ (g - x.generation).toNat ≤ 127) ∨
      (g = x.generation ∧ named.toNat ≤ x.recordedOwner.toNat) := by
  rw [← genCompare_newer_iff, ← genCompare_equal_iff, Window.passes]
  cases genCompare g x.generation <;> simp

section Grant
variable {s : State} {w : WinId} {src : Station} {b : Word} {g : Byte} {q : Word} {returned : Bool}

theorem State.adopt_win (named : Station) : (s.adopt w named g).win w = { s.win w with recordedOwner := named, generation := g } :=
  State.win_modWin s w _

theorem State.handleFor_grant_here (hshare : (s.win w).role = some .share) :
    s.handleFor w src (.grant b g q s.station returned) = s.handleGrantHere w src g q returned := by
  simp only [State.handleFor, State.shareOnly, hshare, if_true]

theorem State.handleGrantHere_of_follower (hfollows : s.follows w) :
    s.handleGrantHere w src g q returned =
      if (s.win w).passes g s.station = true then (s.adopt w s.station g).takeGrant w src g q returned else s.foreign := by
  rw [State.handleGrantHere, if_neg (State.owned_of_followed hfollows)]

/-- The window of an accepted grant, still to become OWNER or GRANTING. -/
theorem State.unfollowed_adopt : (s.adopt w s.station g).unfollowed w = { s.win w with
    recordedOwner := s.station, generation := g, wait := .stopped, contextWait := false,
    claimAttempts := if (s.win w).ownership = .claiming then 0 else (s.win w).claimAttempts,
    claimTimer := if (s.win w).ownership = .claiming then .stopped else (s.win w).claimTimer,
    sync := if s.boundCtx w = none then (s.win w).sync else .gap,
    gapOrigin := if s.boundCtx w = none then (s.win w).gapOrigin else some .here } := by
  rw [State.unfollowed, State.adopt_win]
  rfl

theorem State.becomeReturner_win {s : State} : (s.becomeReturner w src g q).win w = { s.unfollowed w with
    ownership := .granting, grantee := some src, returned := true, generation := g, nextSeq := q,
    recordedOwner := s.station } := by
  rw [State.becomeReturner, State.win_modWin, State.win_exitClaiming_leaveFollowed]

theorem State.becomeReturner_touches {s : State} : s.TouchesOwnership (s.becomeReturner w src g q) := by
  unfold State.becomeReturner
  exact (((State.TouchesOwnership.of_follower (State.TouchesFollower.refl s)).exitClaiming w).leaveFollowed w).modWin w _

/-- What taking a grant leaves: an owned or returned window behind the one that follows no more. -/
theorem State.takeGrant_leaves {t u : State} {f : Window → Window} {e : EventUnit} {x : SweepEngine}
    (hu : u = (((s.adopt w s.station g).exitClaiming w).leaveFollowed w).modWin w f) (ht : t = { u with en := e, se := x }) :
    s.leavesFollowed t w ∧ t = { s with li := { s.li with tx := t.li.tx }, windows := t.windows, contexts := t.contexts,
                                        ownerDue := t.ownerDue, en := t.en, se := t.se } := by
  have htouches : (s.adopt w s.station g).TouchesOwnership u := by
    rw [hu]
    exact (((State.TouchesOwnership.of_follower (State.TouchesFollower.refl _)).exitClaiming w).leaveFollowed w).modWin w f
  refine ⟨State.leavesFollowed_of_adopt (named := s.station) (g := g) (State.leavesFollowed_of_left ?_ ?_ ?_ fun v hv => ?_), ?_⟩
  · rw [ht, hu]; rfl
  · rw [ht, hu]; rfl
  · rw [ht, hu]; rfl
  · rw [State.win_eq_of_windows (s := u) (by rw [ht]), hu, State.win_modWin_of_ne _ _ hv]
  · rw [ht]
    obtain ⟨v, due, ⟨tx, cs, ws, rfl⟩, rfl⟩ := htouches
    rfl

/-- Three outcomes of a grant that passes, by the sync state and whether it was returned (R145 to R147). -/
theorem State.takeGrant_inStep (h : (s.win w).sync = .synced ∧ (s.win w).expected = some q) :
    s.takeGrant w src g q returned = (s.becomeOwner w g q).recordEvent
      { cause := .ownershipGained, window := some w, station := some src, sequence := some q } := by
  rw [State.takeGrant, if_pos h]

theorem State.takeGrant_forced (h : ¬((s.win w).sync = .synced ∧ (s.win w).expected = some q)) :
    s.takeGrant w src g q true = ((s.becomeOwner w g q).recordEvent
      { cause := .forcedOwnership, window := some w, station := some src, sequence := some q }).modSe
        fun e => e.ask w .forced := by
  rw [State.takeGrant, if_neg h, if_pos rfl]

theorem State.takeGrant_returned (h : ¬((s.win w).sync = .synced ∧ (s.win w).expected = some q)) :
    s.takeGrant w src g q false = s.becomeReturner w src g q := by
  rw [State.takeGrant, if_neg h, if_neg (by simp)]

end Grant

/-- Settles O44. -/
theorem grantFramesHandOver : Obligations.GrantFramesHandOver := by
  intro s w src b g q returned hruns hshare hfollows
  rw [State.handleFor_grant_here hshare, State.handleGrantHere_of_follower hfollows]
  intro t left owner passes inStep
  have hpasses : (s.win w).passes g s.station = true ↔ passes := Window.passes_iff
  by_cases hpass : (s.win w).passes g s.station = true
  · have ht : t = (s.adopt w s.station g).takeGrant w src g q returned := if_pos hpass
    have hstep : inStep ↔ ((s.adopt w s.station g).win w).sync = .synced ∧
        ((s.adopt w s.station g).win w).expected = some q := by
      rw [State.adopt_win]
    have howner : ((s.adopt w s.station g).becomeOwner w g q).win w = owner := by
      rw [State.becomeOwner_win, State.unfollowed_adopt]
      rfl
    have hreturner : ((s.adopt w s.station g).becomeReturner w src g q).win w =
        { left with ownership := .granting, grantee := some src, returned := true } := by
      rw [State.becomeReturner_win, State.unfollowed_adopt]
      rfl
    have hrecorded (f : EventFields) : ((s.adopt w s.station g).becomeOwner w g q).recordEvent f =
        { (s.adopt w s.station g).becomeOwner w g q with en := s.eventOf f } :=
      State.becomeOwner_touches.recordEvent (s := s.adopt w s.station g) hruns f
    have hkept : ((s.adopt w s.station g).becomeOwner w g q).se = s.se ∧
        ((s.adopt w s.station g).becomeReturner w src g q).se = s.se ∧
        ((s.adopt w s.station g).becomeReturner w src g q).en = s.en := by
      have hgained := (State.becomeOwner_touches (s := s.adopt w s.station g) (w := w) (g := g) (q := q)).eq
      have hgiven := (State.becomeReturner_touches (s := s.adopt w s.station g) (w := w) (src := src) (g := g) (q := q)).eq
      refine ⟨?_, ?_, ?_⟩
      · rw [hgained]; rfl
      · rw [hgiven]; rfl
      · rw [hgiven]; rfl
    obtain ⟨hkeptSe, hreturnedSe, hreturnedEn⟩ := hkept
    have howns := State.becomeOwner.eq_1 (s.adopt w s.station g) w g q
    have hreturns := State.becomeReturner.eq_1 (s.adopt w s.station g) w src g q
    generalize hu : (s.adopt w s.station g).becomeOwner w g q = u at howner hrecorded hkeptSe howns
    generalize hu' : (s.adopt w s.station g).becomeReturner w src g q = u' at hreturner hreturnedSe hreturnedEn hreturns
    by_cases hinStep : inStep
    · have hgained : t = { u with
          en := s.eventOf { cause := .ownershipGained, window := some w, station := some src, sequence := some q },
          se := s.se } := by
        rw [ht, State.takeGrant_inStep (hstep.1 hinStep), hu, hrecorded, ← hkeptSe]
      obtain ⟨hleaves, heq⟩ := State.takeGrant_leaves (s := s) (w := w) (g := g) howns hgained
      refine ⟨fun h => absurd (hpasses.1 hpass) h, fun _ => ⟨hleaves, heq⟩, fun _ _ => ⟨?_, ?_, ?_⟩,
        fun _ h => absurd hinStep h, fun _ h => absurd hinStep h⟩ <;> rw [hgained]
      exact howner
    · have hnot := mt hstep.2 hinStep
      cases hreturned : returned with
      | true =>
        have hforced : t = { u with
            en := s.eventOf { cause := .forcedOwnership, window := some w, station := some src, sequence := some q },
            se := s.se.ask w .forced } := by
          rw [ht, hreturned, State.takeGrant_forced hnot, hu, hrecorded, State.modSe, ← hkeptSe]
        obtain ⟨hleaves, heq⟩ := State.takeGrant_leaves (s := s) (w := w) (g := g) howns hforced
        refine ⟨fun h => absurd (hpasses.1 hpass) h, fun _ => ⟨hleaves, heq⟩, fun _ h => absurd h hinStep,
          fun _ _ h => (nomatch h), fun _ _ _ => ⟨?_, State.asksSweep_of_ask (by rw [hforced]), by rw [hforced]⟩⟩
        rw [hforced]
        exact howner
      | false =>
        have hback : t = { u' with en := s.en, se := s.se } := by
          rw [ht, hreturned, State.takeGrant_returned hnot, hu', ← hreturnedEn, ← hreturnedSe]
        obtain ⟨hleaves, heq⟩ := State.takeGrant_leaves (s := s) (w := w) (g := g) hreturns hback
        refine ⟨fun h => absurd (hpasses.1 hpass) h, fun _ => ⟨hleaves, heq⟩, fun _ h => absurd h hinStep,
          fun _ _ _ => ⟨?_, by rw [hback], by rw [hback]⟩, fun _ _ h => (nomatch h)⟩
        rw [hback]
        exact hreturner
  · have ht : t = s.foreign := if_neg hpass
    have hnot : ¬passes := mt hpasses.2 hpass
    exact ⟨fun _ => ht, fun h => absurd h hnot, fun h => absurd h hnot, fun h => absurd h hnot, fun h => absurd h hnot⟩

end Sys2Proof.Machine
end

section
/-!
The rows that one bt brings about: what ends the bits of a frame, how many raw bits carry the arbitration field, and
which of the transmitter, the receiver and the run counts finds each row.
-/

namespace Sys2Proof.Machine

/-! ### The run that ends a list of bits -/

theorem trailingRun_concat_same (b : Bit) (bits : List Bit) : trailingRun b (bits ++ [b]) = trailingRun b bits + 1 := by
  simp [trailingRun]

theorem trailingRun_concat_other {b c : Bit} (bits : List Bit) (h : c ≠ b) : trailingRun b (bits ++ [c]) = 0 := by
  simp [trailingRun, h]

/-- The bits before the run end otherwise. -/
theorem trailingRun_append_replicate {b : Bit} {front : List Bit} (n : Nat) (h : front.getLast? ≠ some b) :
    trailingRun b (front ++ List.replicate n b) = n := by
  induction n with
  | zero =>
    rw [List.replicate_zero, List.append_nil]
    rcases List.eq_nil_or_concat' front with rfl | ⟨before, c, rfl⟩
    · rfl
    · exact trailingRun_concat_other before fun hc : c = b => h (by simp [hc])
  | succ n ih => rw [List.replicate_succ', ← List.append_assoc, trailingRun_concat_same, ih]

theorem exists_front_of_trailingRun (b : Bit) (bits : List Bit) :
    ∃ front : List Bit, bits = front ++ List.replicate (trailingRun b bits) b ∧ front.getLast? ≠ some b := by
  induction bits using List.reverseRecOn with
  | nil => exact ⟨[], rfl, by simp⟩
  | append_singleton bits c ih =>
    by_cases hc : c = b
    · obtain ⟨front, hbits, hlast⟩ := ih
      refine ⟨front, ?_, hlast⟩
      rw [hc, trailingRun_concat_same, List.replicate_succ', ← List.append_assoc, ← hbits]
    · refine ⟨bits ++ [c], ?_, by simpa using hc⟩
      rw [trailingRun_concat_other bits hc, List.replicate_zero, List.append_nil]

/-- A run is a full one when what stands before it ends otherwise. -/
theorem trailingRun_eq_iff (b : Bit) (bits : List Bit) (n : Nat) :
    trailingRun b bits = n ↔ ∃ front : List Bit, bits = front ++ List.replicate n b ∧ front.getLast? ≠ some b := by
  constructor
  · rintro rfl
    exact exists_front_of_trailingRun b bits
  · rintro ⟨front, rfl, hlast⟩
    exact trailingRun_append_replicate n hlast

theorem delimiter_eq : delimiter = [dominant] ++ List.replicate 7 recessive ++ [dominant] := rfl

/-! ### What ends a frame (R6) -/

theorem frameEnd_of_seven {bits : List Bit} (h : trailingRun dominant bits = 7) :
    frameEnd bits = some (.stuffViolation .sevenDominant) := by
  rw [frameEnd, if_pos h]

theorem frameEnd_of_eight {bits : List Bit} (hseven : trailingRun dominant bits ≠ 7) (h : trailingRun recessive bits = 8) :
    frameEnd bits = some .abort := by
  rw [frameEnd, if_neg hseven, if_pos h]

/-- A bit behind the closing run closes the frame when it is dominant and the run is of seven recessive bits. -/
theorem frameEnd_concat {before : List Bit} {last : Bit} (hseven : trailingRun dominant (before ++ [last]) ≠ 7)
    (height : trailingRun recessive (before ++ [last]) ≠ 8) :
    frameEnd (before ++ [last]) =
      if last = dominant ∧ trailingRun recessive before = 7 then
        if (destuff (before.take (before.length - 8))).isNone then some (.stuffViolation .missingAtClosing)
        else some (.frameReceived (before.take (before.length - 8)))
      else none := by
  have htake : (before ++ [last]).take ((before ++ [last]).length - 9) = before.take (before.length - 8) := by
    rw [List.take_append_of_le_length (by simp)]
    simp
  rw [frameEnd, if_neg hseven, if_neg height, htake]
  simp

/-- A delimiter ends the frame with what stands before it. -/
theorem frameEnd_delimiter (content : List Bit) :
    frameEnd (content ++ delimiter) =
      if (destuff content).isNone then some (.stuffViolation .missingAtClosing) else some (.frameReceived content) := by
  have hrun : trailingRun recessive (content ++ [dominant] ++ List.replicate 7 recessive) = 7 :=
    trailingRun_append_replicate 7 (by simp)
  have hbefore : trailingRun dominant (content ++ [dominant] ++ List.replicate 7 recessive) = 0 := by
    rw [List.replicate_succ', ← List.append_assoc, trailingRun_concat_other _ (by decide)]
  rw [delimiter_eq, ← List.append_assoc, ← List.append_assoc, frameEnd_concat, if_pos ⟨rfl, hrun⟩]
  · simp
  · rw [trailingRun_concat_same, hbefore]
    decide
  · rw [trailingRun_concat_other _ (by decide)]
    decide

/-- The frame that is received closed with a delimiter, the opening one's last bit counting as its first (log 8). -/
theorem eq_delimiter_of_frameEnd {bits content : List Bit} (h : frameEnd bits = some (.frameReceived content)) :
    bits = content ++ delimiter ∨ (content = [] ∧ bits = List.replicate 7 recessive ++ [dominant]) := by
  by_cases hseven : trailingRun dominant bits = 7
  · simp [frameEnd_of_seven hseven] at h
  by_cases height : trailingRun recessive bits = 8
  · simp [frameEnd_of_eight hseven height] at h
  rcases List.eq_nil_or_concat' bits with rfl | ⟨before, last, rfl⟩
  · simp [frameEnd, trailingRun] at h
  rw [frameEnd_concat hseven height] at h
  by_cases hlast : last = dominant ∧ trailingRun recessive before = 7
  swap
  · simp [if_neg hlast] at h
  obtain ⟨rfl, hrun⟩ := hlast
  obtain ⟨front, rfl, hfront⟩ := (trailingRun_eq_iff recessive before 7).mp hrun
  have hcontent : (front ++ List.replicate 7 recessive).take ((front ++ List.replicate 7 recessive).length - 8) = content := by
    rw [if_pos ⟨rfl, hrun⟩] at h
    split at h
    · simp at h
    · simpa using h
  rcases List.eq_nil_or_concat' front with rfl | ⟨content', c, rfl⟩
  · refine Or.inr ⟨?_, rfl⟩
    rw [← hcontent]
    rfl
  · have hc : c = dominant := by simpa using hfront
    have hsame : content' = content := by
      rw [← hcontent, List.append_assoc, List.take_append_of_le_length (by simp)]
      simp
    refine Or.inl ?_
    rw [hc, hsame, delimiter_eq]
    simp

/-- What a bit can end a frame with. -/
theorem frameEnd_cases {bits : List Bit} {i : Instr} (h : frameEnd bits = some i) :
    (i = .stuffViolation .sevenDominant ∧ trailingRun dominant bits = 7) ∨
      (i = .abort ∧ trailingRun recessive bits = 8) ∨ i = .stuffViolation .missingAtClosing ∨
      ∃ content : List Bit, i = .frameReceived content := by
  by_cases hseven : trailingRun dominant bits = 7
  · rw [frameEnd_of_seven hseven, Option.some_inj] at h
    exact Or.inl ⟨h.symm, hseven⟩
  by_cases height : trailingRun recessive bits = 8
  · rw [frameEnd_of_eight hseven height, Option.some_inj] at h
    exact Or.inr (Or.inl ⟨h.symm, height⟩)
  rcases List.eq_nil_or_concat' bits with rfl | ⟨before, last, rfl⟩
  · simp [frameEnd, trailingRun] at h
  rw [frameEnd_concat hseven height] at h
  split at h
  · split at h
    · exact Or.inr (Or.inr (Or.inl (Option.some.inj h).symm))
    · exact Or.inr (Or.inr (Or.inr ⟨_, (Option.some.inj h).symm⟩))
  · exact nomatch h

theorem trailingRun_of_sevenDominant {bits : List Bit} (h : frameEnd bits = some (.stuffViolation .sevenDominant)) :
    trailingRun dominant bits = 7 := by
  have hcases := frameEnd_cases h
  simpa using hcases

theorem trailingRun_of_abort {bits : List Bit} (h : frameEnd bits = some .abort) : trailingRun recessive bits = 8 := by
  have hcases := frameEnd_cases h
  simpa using hcases

/-! ### The arbitration field (R14) -/

/-- Six bits on the line take a stuff bit when they are equal. -/
theorem length_stuff_six : ∀ a b c d e f : Bit,
    (stuff [a, b, c, d, e, f]).length = if b = a ∧ c = a ∧ d = a ∧ e = a ∧ f = a then 7 else 6 := by
  decide

/-- A frame begins with the six highest bits of its header. -/
theorem bitsOfBytes_headerBody (f : Frame) :
    ∃ (a b c d e g : Bit) (rest : List Bit), bitsOfBytes f.headerBody = a :: b :: c :: d :: e :: g :: rest := by
  simp [Frame.headerBody, bytesOfWord, bitsOfBytes, bitsOfByte]

theorem arbitrationBits_headerBody (f : Frame) :
    9 + arbitrationBits f.headerBody =
      (if ∀ k : Nat, k < 6 → (bitsOfBytes f.headerBody).getD k recessive = (bitsOfBytes f.headerBody).getD 0 recessive
        then 16 else 15) + 1 := by
  obtain ⟨a, b, c, d, e, g, rest, hbits⟩ := bitsOfBytes_headerBody f
  have hequal : (∀ k : Nat, k < 6 → (a :: b :: c :: d :: e :: g :: rest).getD k recessive =
      (a :: b :: c :: d :: e :: g :: rest).getD 0 recessive) ↔ b = a ∧ c = a ∧ d = a ∧ e = a ∧ g = a := by
    constructor
    · intro h
      exact ⟨h 1 (by decide), h 2 (by decide), h 3 (by decide), h 4 (by decide), h 5 (by decide)⟩
    · rintro ⟨rfl, rfl, rfl, rfl, rfl⟩ k hk
      interval_cases k <;> rfl
  rw [arbitrationBits, hbits, List.take_succ_cons, List.take_succ_cons, List.take_succ_cons, List.take_succ_cons,
    List.take_succ_cons, List.take_succ_cons, List.take_zero, length_stuff_six]
  by_cases h : b = a ∧ c = a ∧ d = a ∧ e = a ∧ g = a
  · rw [if_pos h, if_pos (hequal.mpr h)]
  · rw [if_neg h, if_neg fun hall => h (hequal.mp hall)]

/-! ### Which block finds a row -/

/-- The rows the transmitter finds (R14 to R16). -/
def IsTransmitterRow (i : Instr) : Prop :=
  i = .arbitrationWon ∨ i = .arbitrationLost ∨ i = .transmitFault ∨ i = .frameCompleted

/-- The rows the receiver finds (R5, R6). -/
def IsReceiverRow (i : Instr) : Prop :=
  i = .openingDelimiter ∨ i = .abort ∨ (∃ c : StuffCause, i = .stuffViolation c) ∨
    ∃ content : List Bit, i = .frameReceived content

/-- The rows the run counts bring about (R2, R11, R17). -/
def IsRunCountRow (i : Instr) : Prop := i = .lineStuck ∨ i = .lineIdle ∨ i = .yieldIntervalExpiry

theorem IsTransmitterRow.not_receivers {i : Instr} (h : IsTransmitterRow i) : ¬IsReceiverRow i := by
  rintro (rfl | rfl | ⟨c, rfl⟩ | ⟨content, rfl⟩) <;> simp [IsTransmitterRow] at h

theorem IsTransmitterRow.not_runCounts {i : Instr} (h : IsTransmitterRow i) : ¬IsRunCountRow i := by
  rintro (rfl | rfl | rfl) <;> simp [IsTransmitterRow] at h

theorem IsReceiverRow.not_runCounts {i : Instr} (h : IsReceiverRow i) : ¬IsRunCountRow i := by
  rintro (rfl | rfl | rfl) <;> simp [IsReceiverRow] at h

theorem Transmitter.finds_isTransmitters {tx : Transmitter} {sample : Bit} {i : Instr} (h : tx.finds sample = some i) :
    IsTransmitterRow i := by
  cases tx with
  | idle => exact nomatch h
  | arbitrate f =>
    simp only [Transmitter.finds] at h
    repeat' split at h
    all_goals cases h
    all_goals simp [IsTransmitterRow]
  | send f =>
    simp only [Transmitter.finds] at h
    repeat' split at h
    all_goals cases h
    all_goals simp [IsTransmitterRow]

theorem frameEnd_isReceivers {bits : List Bit} {i : Instr} (h : frameEnd bits = some i) : IsReceiverRow i := by
  obtain ⟨rfl, -⟩ | ⟨rfl, -⟩ | rfl | ⟨content, rfl⟩ := frameEnd_cases h <;> simp [IsReceiverRow]

theorem Receiver.finds_isReceivers {rx : Receiver} {sample driving : Bool} {i : Instr}
    (h : rx.finds sample driving = some i) : IsReceiverRow i := by
  unfold Receiver.finds at h
  repeat' split at h
  · simp at h
  · exact frameEnd_isReceivers h
  · simp [IsReceiverRow, ← (Option.some.inj h)]
  · simp at h

theorem LineInterface.runEvents_isRunCounts {li : LineInterface} {sample : Bit} {i : Instr} (h : i ∈ li.runEvents sample) :
    IsRunCountRow i := by
  simp only [LineInterface.runEvents, List.mem_append] at h
  obtain (h | h) | h := h <;> split at h <;> simp at h <;> simp [IsRunCountRow, h]

/-- The part drives a frame it has not lost, so the receiver leaves the frame to the transmitter (R7). -/
def State.driving (s : State) : Bool := s.len && decide (s.li.tx.finds s.sample ≠ some .arbitrationLost)

theorem mem_rowOf {i : Instr} {o : Option Instr} : i ∈ rowOf o ↔ o = some i := by
  cases o <;> simp [rowOf, eq_comm]

theorem State.mem_tickEvents (s : State) (i : Instr) :
    i ∈ s.tickEvents ↔ s.li.tx.finds s.sample = some i ∨ s.li.rx.finds s.sample s.driving = some i ∨
      i ∈ s.li.runEvents s.sample := by
  simp only [State.tickEvents, State.driving, List.mem_append, mem_rowOf, or_assoc]

theorem State.mem_tickEvents_of_transmitters (s : State) {i : Instr} (h : IsTransmitterRow i) :
    i ∈ s.tickEvents ↔ s.li.tx.finds s.sample = some i := by
  rw [s.mem_tickEvents]
  exact or_iff_left (not_or.mpr ⟨fun hrx => h.not_receivers (Receiver.finds_isReceivers hrx),
    fun hrun => h.not_runCounts (LineInterface.runEvents_isRunCounts hrun)⟩)

theorem State.mem_tickEvents_of_receivers (s : State) {i : Instr} (h : IsReceiverRow i) :
    i ∈ s.tickEvents ↔ s.li.rx.finds s.sample s.driving = some i := by
  rw [s.mem_tickEvents]
  constructor
  · rintro (htx | hrx | hrun)
    · exact absurd h (Transmitter.finds_isTransmitters htx).not_receivers
    · exact hrx
    · exact absurd (LineInterface.runEvents_isRunCounts hrun) h.not_runCounts
  · exact fun hrx => Or.inr (Or.inl hrx)

theorem State.mem_tickEvents_of_runCounts (s : State) {i : Instr} (h : IsRunCountRow i) :
    i ∈ s.tickEvents ↔ i ∈ s.li.runEvents s.sample := by
  rw [s.mem_tickEvents]
  constructor
  · rintro (htx | hrx | hrun)
    · exact absurd h (Transmitter.finds_isTransmitters htx).not_runCounts
    · exact absurd h (Receiver.finds_isReceivers hrx).not_runCounts
    · exact hrun
  · exact fun hrun => Or.inr (Or.inr hrun)

/-! ### The transmitter's rows -/

theorem OnLine.wire_of_read {f : OnLine} (h : f.pagePending = false) : f.wire = wireOf f.frame.content := by
  simp [OnLine.wire, h]

/-- A frame in arbitration with `driven` on the line (R14 to R16). -/
theorem finds_arbitrate {f : OnLine} {driven : Bit} (sample : Bit) (hpage : f.pagePending = false)
    (hdriven : (wireOf f.frame.content)[f.sent]? = some driven) :
    (Transmitter.arbitrate f).finds sample =
      if driven = sample then (if f.sent + 1 = 9 + arbitrationBits f.frame.headerBody then some .arbitrationWon else none)
      else if 9 ≤ f.sent ∧ f.sent < 9 + arbitrationBits f.frame.headerBody ∧ driven = recessive then some .arbitrationLost
      else some .transmitFault := by
  have hbit : f.wire.getD f.sent recessive = driven := by
    rw [OnLine.wire_of_read hpage, List.getD_eq_getElem?_getD, hdriven, Option.getD_some]
  simp only [Transmitter.finds, hbit]

theorem finds_send {f : OnLine} {driven : Bit} (sample : Bit) (hpage : f.pagePending = false)
    (hdriven : (wireOf f.frame.content)[f.sent]? = some driven) :
    (Transmitter.send f).finds sample =
      if driven ≠ sample then some .transmitFault
      else if f.sent + 1 = (wireOf f.frame.content).length then some .frameCompleted else none := by
  have hbit : f.wire.getD f.sent recessive = driven := by
    rw [OnLine.wire_of_read hpage, List.getD_eq_getElem?_getD, hdriven, Option.getD_some]
  simp only [Transmitter.finds, hbit]
  simp [hpage, OnLine.wire_of_read hpage]

/-! ### The receiver's rows -/

theorem Receiver.finds_opening_iff (rx : Receiver) (sample driving : Bool) :
    rx.finds sample driving = some .openingDelimiter ↔ rx = .hunt (some 7) ∧ sample = dominant := by
  unfold Receiver.finds
  split
  next bits =>
    have hnot : frameEnd (bits ++ [sample]) ≠ some .openingDelimiter := by
      intro h
      have hcases := frameEnd_cases h
      simp at hcases
    split <;> simp [hnot]
  next n =>
    cases n <;> simp [Receiver.opens]

theorem finds_frame {s : State} {bits : List Bit} (hrx : s.li.rx = .frame bits) (hlen : s.len = false) :
    s.li.rx.finds s.sample s.driving = frameEnd (bits ++ [s.sample]) := by
  simp [hrx, Receiver.finds, State.driving, hlen]

/-! ### The run counts' rows -/

/-- A count up to `top` reaches `k` in this bt when the level goes on and the count was one below. -/
theorem count_reaches_iff {goesOn : Prop} [Decidable goesOn] {run top k : Nat} (hrun : run ≤ top) (hk : 1 ≤ k)
    (htop : k ≤ top) :
    ((if goesOn then min top (run + 1) else 0) = k ∧ run ≠ if goesOn then min top (run + 1) else 0) ↔
      goesOn ∧ run + 1 = k := by
  by_cases h : goesOn
  · rw [if_pos h]
    simp only [h, true_and]
    omega
  · rw [if_neg h]
    simp only [h, false_and, iff_false]
    omega

theorem mem_row_if {p : Prop} [Decidable p] (i j : Instr) : i ∈ (if p then [j] else []) ↔ p ∧ i = j := by
  split
  next h => simp [h]
  next h => simp [h]

theorem LineInterface.mem_runEvents {li : LineInterface} (sample : Bit) (hr : li.recessiveRun ≤ 48) (hd : li.dominantRun ≤ 32)
    (i : Instr) :
    i ∈ li.runEvents sample ↔
      ((sample = dominant ∧ li.dominantRun + 1 = 32) ∧ i = .lineStuck) ∨
        ((sample = recessive ∧ li.recessiveRun + 1 = 16) ∧ i = .lineIdle) ∨
        ((sample = recessive ∧ li.recessiveRun + 1 = 48) ∧ i = .yieldIntervalExpiry) := by
  simp only [LineInterface.runEvents, List.mem_append, mem_row_if, or_assoc]
  refine or_congr (and_congr_left' ?_) (or_congr (and_congr_left' ?_) (and_congr_left' ?_))
  · exact count_reaches_iff hd (by decide) (by decide)
  · exact count_reaches_iff hr (by decide) (by decide)
  · exact count_reaches_iff hr (by decide) (by decide)

/-! ### The obligation -/

theorem arbitration_rows (s : State) (f : OnLine) (driven : Bit) (last : Nat)
    (hlast : 9 + arbitrationBits f.frame.headerBody = last + 1) (htx : s.li.tx = .arbitrate f) (hpage : f.pagePending = false)
    (hdriven : (wireOf f.frame.content)[f.sent]? = some driven) :
    (Instr.arbitrationWon ∈ s.tickEvents ↔ driven = s.sample ∧ f.sent = last) ∧
    (Instr.arbitrationLost ∈ s.tickEvents ↔
      driven = recessive ∧ s.sample = dominant ∧ 9 ≤ f.sent ∧ f.sent ≤ last) ∧
    (Instr.transmitFault ∈ s.tickEvents ↔
      driven ≠ s.sample ∧ ¬(driven = recessive ∧ 9 ≤ f.sent ∧ f.sent ≤ last)) ∧
    Instr.frameCompleted ∉ s.tickEvents := by
  rw [s.mem_tickEvents_of_transmitters (by simp [IsTransmitterRow]), s.mem_tickEvents_of_transmitters (by simp [IsTransmitterRow]),
    s.mem_tickEvents_of_transmitters (by simp [IsTransmitterRow]), s.mem_tickEvents_of_transmitters (by simp [IsTransmitterRow]),
    htx, finds_arbitrate s.sample hpage hdriven, hlast]
  by_cases hsame : driven = s.sample
  · have hlost : ¬(driven = recessive ∧ s.sample = dominant) := by
      rw [hsame]
      rintro ⟨hr, hd⟩
      simp [hr] at hd
    by_cases hend : f.sent = last
    · simp [hsame, hend]
      grind
    · simp [hsame, hend]
      grind
  · have hdom : driven = recessive → s.sample = dominant := by
      intro h
      simpa [h] using hsame
    by_cases hfield : 9 ≤ f.sent ∧ f.sent < last + 1 ∧ driven = recessive
    · simp [hfield, hdom]
      omega
    · simp only [if_neg hsame, if_neg hfield]
      simp [hsame]
      grind

theorem State.driving_of_send {s : State} {f : OnLine} (htx : s.li.tx = .send f) : s.driving = true := by
  have hlost : (Transmitter.send f).finds s.sample ≠ some .arbitrationLost := by
    simp only [Transmitter.finds]
    repeat' split
    all_goals simp
  simp [State.driving, State.len, htx, hlost, Transmitter.onLine]

theorem receiver_rows {s : State} {bits : List Bit} (hrx : s.li.rx = .frame bits) (hlen : s.len = false) :
    let raw := bits ++ [s.sample]
    (∀ front : List Bit, raw = front ++ List.replicate 7 dominant → front.getLast? ≠ some dominant →
      Instr.stuffViolation .sevenDominant ∈ s.tickEvents) ∧
    (∀ front : List Bit, raw = front ++ List.replicate 8 recessive → front.getLast? ≠ some recessive →
      Instr.abort ∈ s.tickEvents) ∧
    (∀ content : List Bit, raw = content ++ delimiter →
      (destuff content = none → Instr.stuffViolation .missingAtClosing ∈ s.tickEvents) ∧
      (destuff content ≠ none → Instr.frameReceived content ∈ s.tickEvents)) ∧
    (Instr.stuffViolation .sevenDominant ∈ s.tickEvents → ∃ front : List Bit, raw = front ++ List.replicate 7 dominant) ∧
    (Instr.abort ∈ s.tickEvents → ∃ front : List Bit, raw = front ++ List.replicate 8 recessive) ∧
    (∀ content : List Bit, Instr.frameReceived content ∈ s.tickEvents →
      raw = content ++ delimiter ∨ (content = [] ∧ raw = List.replicate 7 recessive ++ [dominant])) := by
  intro raw
  have hmem (i : Instr) (h : IsReceiverRow i) : i ∈ s.tickEvents ↔ frameEnd raw = some i := by
    rw [s.mem_tickEvents_of_receivers h, finds_frame hrx hlen]
  have hstuff (c : StuffCause) := hmem (.stuffViolation c) (by simp [IsReceiverRow])
  have habort := hmem .abort (by simp [IsReceiverRow])
  have hreceived (content : List Bit) := hmem (.frameReceived content) (by simp [IsReceiverRow])
  refine ⟨fun front hraw hlast => (hstuff _).mpr ?_, fun front hraw hlast => habort.mpr ?_,
    fun content hraw => ⟨fun h => (hstuff _).mpr ?_, fun h => (hreceived content).mpr ?_⟩, fun h => ?_, fun h => ?_,
    fun content h => eq_delimiter_of_frameEnd ((hreceived content).mp h)⟩
  · exact frameEnd_of_seven ((trailingRun_eq_iff dominant raw 7).mpr ⟨front, hraw, hlast⟩)
  · have hrecessive : trailingRun dominant raw = 0 := by
      rw [hraw, List.replicate_succ', ← List.append_assoc, trailingRun_concat_other _ (by decide)]
    exact frameEnd_of_eight (by omega) ((trailingRun_eq_iff recessive raw 8).mpr ⟨front, hraw, hlast⟩)
  · rw [hraw, frameEnd_delimiter, h]
    rfl
  · rw [hraw, frameEnd_delimiter, if_neg (by simpa using h)]
  · obtain ⟨front, hraw, -⟩ := (trailingRun_eq_iff dominant raw 7).mp (trailingRun_of_sevenDominant ((hstuff _).mp h))
    exact ⟨front, hraw⟩
  · obtain ⟨front, hraw, -⟩ := (trailingRun_eq_iff recessive raw 8).mp (trailingRun_of_abort (habort.mp h))
    exact ⟨front, hraw⟩

/-- Settles O3. -/
theorem linePatternsAreFound : Obligations.LinePatternsAreFound := by
  unfold Obligations.LinePatternsAreFound
  refine ⟨fun s htx i hi => ?_, fun s f driven htx hpage hdriven => ?_, fun s f driven htx hpage hdriven => ?_, fun s => ?_,
    fun s bits hrx hlen => ?_, fun s f bits hrx htx i hi => ?_, fun s hr hd => ?_⟩
  · have hnot : ¬IsTransmitterRow i := by
      intro h
      rw [s.mem_tickEvents_of_transmitters h, htx] at hi
      exact nomatch hi
    simpa [IsTransmitterRow] using hnot
  · exact arbitration_rows s f driven _ (arbitrationBits_headerBody f.frame) htx hpage hdriven
  · rw [s.mem_tickEvents_of_transmitters (by simp [IsTransmitterRow]), s.mem_tickEvents_of_transmitters (by simp [IsTransmitterRow]),
      s.mem_tickEvents_of_transmitters (by simp [IsTransmitterRow]), s.mem_tickEvents_of_transmitters (by simp [IsTransmitterRow]),
      htx, finds_send s.sample hpage hdriven]
    by_cases hsame : driven = s.sample
    · by_cases hend : f.sent + 1 = (wireOf f.frame.content).length <;> simp [hsame, hend]
    · simp [hsame]
  · rw [s.mem_tickEvents_of_receivers (by simp [IsReceiverRow]), Receiver.finds_opening_iff]
  · exact receiver_rows hrx hlen
  · have hnot : ¬IsReceiverRow i := by
      intro h
      rw [s.mem_tickEvents_of_receivers h, hrx, Receiver.finds, if_pos (State.driving_of_send htx)] at hi
      exact nomatch hi
    simp only [IsReceiverRow, not_or, not_exists] at hnot
    exact ⟨hnot.2.2.1, hnot.2.1, hnot.2.2.2⟩
  · have hmem (i : Instr) (h : IsRunCountRow i) := (s.mem_tickEvents_of_runCounts h).trans
      (LineInterface.mem_runEvents s.sample hr hd i)
    rw [hmem _ (by simp [IsRunCountRow]), hmem _ (by simp [IsRunCountRow]), hmem _ (by simp [IsRunCountRow])]
    simp

end Sys2Proof.Machine
end

section
/-!
The control area as a read cycle returns it (R178 to R181, chapter 11): the map's words, and the words with a capture
(R25, R52).
-/

namespace Sys2Proof.Machine

/-! ### The words of the map -/

theorem controlWord_parameters (s : State) {off : Nat} (h : 0x008 ≤ off ∧ off ≤ 0x018) :
    s.controlWord off = wordNat (s.lp.params.words.getD ((off - 0x008) / 2) 0) := by
  rw [State.controlWord]
  repeat rw [if_neg (by omega)]
  rw [if_pos h]

theorem controlWord_counter (s : State) (i : Fin 12) : s.controlWord (0x040 + 2 * i.val) = s.en.counters[i] := by
  rw [State.controlWord]
  repeat rw [if_neg (by omega)]
  rw [if_pos (by omega), show (0x040 + 2 * i.val - 0x040) / 2 = i.val by omega]
  simp

theorem controlWord_event (s : State) {off : Nat} (h : 0x066 ≤ off ∧ off ≤ 0x074) :
    s.controlWord off = s.en.record.words.getD ((off - 0x066) / 2) 0 := by
  rw [State.controlWord]
  repeat rw [if_neg (by omega)]
  rw [if_pos h]

theorem controlWord_argument (s : State) {off : Nat} (h : 0x0A2 ≤ off ∧ off ≤ 0x0A8) :
    s.controlWord off = s.lp.args.toList.getD ((off - 0x0A2) / 2) 0 := by
  rw [State.controlWord]
  repeat rw [if_neg (by omega)]
  rw [if_pos h]

theorem controlWord_arg (s : State) (i : Fin 4) : s.controlWord (0x0A2 + 2 * i.val) = s.lp.args[i] := by
  rw [controlWord_argument s (by omega), show (0x0A2 + 2 * i.val - 0x0A2) / 2 = i.val by omega]
  simp

theorem controlWord_staging (s : State) {off : Nat} (h : 0x0D0 ≤ off ∧ off ≤ 0x0EF) :
    s.controlWord off = wordAt (s.mu.staging.payload.toList.map (·.toNat)) ((off - 0x0D0) / 2) := by
  rw [State.controlWord]
  repeat rw [if_neg (by omega)]
  rw [if_pos h]

theorem controlWord_head (s : State) {off : Nat} (h : 0x102 ≤ off ∧ off ≤ 0x10C) :
    s.controlWord off = s.mu.headWords.getD ((off - 0x102) / 2) 0 := by
  rw [State.controlWord]
  repeat rw [if_neg (by omega)]
  rw [if_pos h]

theorem controlWord_headPayload (s : State) {off : Nat} (h : 0x110 ≤ off ∧ off ≤ 0x12F) :
    s.controlWord off = wordAt s.mu.headPayload ((off - 0x110) / 2) := by
  rw [State.controlWord]
  repeat rw [if_neg (by omega)]
  rw [if_pos h]

theorem controlWord_status (s : State) (w : WinId) (i : Fin 8) :
    s.controlWord (0x200 + 16 * w.val + 2 * i.val) = s.statusWord w i := by
  have hw : (BitVec.ofNat 4 ((0x200 + 16 * w.val + 2 * i.val - 0x200) / 16)).toFin = w := by
    rw [show (0x200 + 16 * w.val + 2 * i.val - 0x200) / 16 = w.val by omega]
    exact Fin.ext (Nat.mod_eq_of_lt w.isLt)
  have hi : (BitVec.ofNat 3 ((0x200 + 16 * w.val + 2 * i.val - 0x200) / 2)).toFin = i := by
    apply Fin.ext
    change (0x200 + 16 * w.val + 2 * i.val - 0x200) / 2 % 8 = i.val
    omega
  rw [State.controlWord]
  repeat rw [if_neg (by omega)]
  rw [if_pos (by omega), hw, hi]

theorem wordAt_map_toNat (bytes : List Byte) (i : Nat) :
    wordAt (bytes.map (·.toNat)) i = bytes.getD (2 * i + 1) 0 ++ bytes.getD (2 * i) 0 := by
  have hget (k : Nat) : BitVec.ofNat 8 ((bytes.map (·.toNat)).getD k 0) = bytes.getD k 0 := by
    by_cases hk : k < bytes.length
    · simp [hk]
    · simp [hk]
  rw [wordAt, hget, hget, wordOf]

theorem wordNat_flagNat (b : Bool) : wordNat (flagNat b) = (BitVec.ofBool b).setWidth 16 := by
  cases b <;> rfl

/-- The word that tells which fields an event record holds (R164). -/
theorem wordNat_presence : ∀ window station address sequence : Bool,
    wordNat (flagNat window + 2 * flagNat station + 4 * flagNat address + 8 * flagNat sequence) =
      (BitVec.ofBool sequence ++ BitVec.ofBool address ++ BitVec.ofBool station ++ BitVec.ofBool window : BitVec 4).setWidth
        16 := by
  decide

/-- Every word the map names reads as the map has it. -/
theorem controlWord_of_mem_map (s : State) : ∀ p ∈ s.controlMap, s.controlWord p.1 = p.2 := by
  simp only [State.controlMap, List.forall_mem_append, List.forall_mem_cons, List.forall_mem_map, List.forall_mem_flatMap,
    List.not_mem_nil, false_imp_iff, implies_true, and_true]
  refine ⟨⟨⟨⟨⟨⟨?_, ?_⟩, ?_⟩, ?_⟩, ?_⟩, ?_⟩, ?_⟩
  · rw [State.controlWord, if_pos rfl]
    cases s.lp.loadResult <;> rfl
  · refine ⟨rfl, rfl, rfl, rfl, rfl, rfl, rfl, rfl, rfl, rfl, BitVec.ofNat_toNat 16 s.lp.params.eventVector,
      BitVec.ofNat_toNat 16 s.lp.params.messageVector, ?_, rfl, rfl⟩
    change wordNat s.li.line.code = _
    cases s.li.line <;> rfl
  · exact fun i _ => controlWord_counter s i
  · refine ⟨rfl, wordNat_flagNat s.en.captureHold, rfl, rfl, ?_, wordNat_presence _ _ _ _, ?_, rfl, rfl, rfl, rfl, rfl, rfl, rfl,
      rfl, controlWord_arg s 0, controlWord_arg s 1, controlWord_arg s 2, controlWord_arg s 3, rfl, ?_, ?_, wordNat_flagNat s.lp.status.probe.found, rfl, rfl, rfl, rfl, rfl, rfl, rfl, rfl,
      rfl, rfl⟩
    · change wordNat (s.en.record.cause.elim 0 Cause.code) = _
      cases s.en.record.cause <;> rfl
    · change wordNat (s.en.record.window.elim 0 fun w => w.val) = _
      cases s.en.record.window <;> rfl
    · change wordNat s.lp.status.result.code = _
      cases s.lp.status.result <;> rfl
    · change wordNat s.lp.status.reason.code = _
      cases s.lp.status.reason <;> rfl
  · intro i _
    rw [controlWord_staging s (by omega), show (208 + 2 * i.val - 0x0D0) / 2 = i.val by omega, wordAt_map_toNat]
    have hlow : 2 * i.val < 32 := by omega
    have hhigh : 2 * i.val + 1 < 32 := by omega
    simp [hlow, hhigh]
  · cases hfifo : s.mu.inFifo with
    | nil => exact fun p hp => nomatch hp
    | cons m rest =>
      have hhead : s.mu.headWords = [wordByte m.source, wordByte m.destination, wordByte m.urgency, wordByte m.kind,
          wordByte m.subkind, wordNat m.payload.length] := by
        simp only [MessageUnit.headWords, hfifo]
      have hpayload : s.mu.headPayload = m.payload.map (·.toNat) := by
        simp only [MessageUnit.headPayload, hfifo]
      simp only [List.forall_mem_append, List.forall_mem_cons, List.forall_mem_map, List.not_mem_nil, false_imp_iff,
        implies_true, and_true]
      refine ⟨?_, fun i _ => ?_⟩
      · refine ⟨?_, ?_, ?_, ?_, ?_, ?_⟩
        all_goals
          rw [controlWord_head s (by decide), hhead]
          rfl
      · rw [controlWord_headPayload s (by omega), show (272 + 2 * i.val - 0x110) / 2 = i.val by omega, hpayload,
          wordAt_map_toNat]
  · intro w _ i _
    exact controlWord_status s w i

/-! ### The words the map does not name -/

/-- The offsets the map names while the in FIFO is empty. -/
def mapOffsets : List Nat :=
  [0x000, 0x002, 0x004, 0x006, 0x008, 0x00A, 0x00C, 0x00E, 0x010, 0x012, 0x014, 0x016, 0x018, 0x020, 0x022, 0x024] ++
  (List.finRange 12).map (fun i => 0x040 + 2 * i.val) ++
  [0x058, 0x060, 0x062, 0x064, 0x066, 0x068, 0x06A, 0x06C, 0x06E, 0x070, 0x072, 0x074, 0x080, 0x082, 0x0A0, 0x0A2, 0x0A4,
    0x0A6, 0x0A8, 0x0AA, 0x0AC, 0x0AE, 0x0B0, 0x0B2, 0x0B4, 0x0B6, 0x0C0, 0x0C2, 0x0C4, 0x0C6, 0x0C8, 0x0CA, 0x100] ++
  (List.finRange 16).map (fun i => 0x0D0 + 2 * i.val) ++
  (List.finRange 16).flatMap fun w => (List.finRange 8).map fun i => 0x200 + 16 * w.val + 2 * i.val

/-- The offsets of the message head (R161). -/
def headOffsets : List Nat :=
  [0x102, 0x104, 0x106, 0x108, 0x10A, 0x10C] ++ (List.finRange 16).map fun i => 0x110 + 2 * i.val

/-- The offsets of the map: the head's stand between the staging payload's and the status records'. -/
theorem map_fst_controlMap (s : State) :
    ∃ front back : List Nat, mapOffsets = front ++ back ∧
      s.controlMap.map Prod.fst = front ++ (if s.mu.inFifo = [] then [] else headOffsets) ++ back := by
  refine ⟨_, _, rfl, ?_⟩
  simp only [State.controlMap, List.map_append]
  refine congrArg₂ (· ++ ·) (congrArg₂ (· ++ ·) rfl ?_) rfl
  cases hfifo : s.mu.inFifo with
  | nil => rfl
  | cons m rest => rfl

theorem mem_controlMap_of_offset (s : State) {off : Nat}
    (h : off ∈ mapOffsets ∨ (off ∈ headOffsets ∧ s.mu.inFifo ≠ [])) : ∃ v : Word, (off, v) ∈ s.controlMap := by
  have hfst : off ∈ s.controlMap.map Prod.fst := by
    obtain ⟨front, back, hmap, hfst⟩ := map_fst_controlMap s
    rw [hfst, List.mem_append, List.mem_append]
    rw [hmap, List.mem_append] at h
    obtain (hfront | hback) | ⟨hhead, hfifo⟩ := h
    · exact Or.inl (Or.inl hfront)
    · exact Or.inr hback
    · exact Or.inl (Or.inr (by rwa [if_neg hfifo]))
  obtain ⟨⟨_, v⟩, hv, rfl⟩ := List.mem_map.mp hfst
  exact ⟨v, hv⟩

/-- The head's words read 0 while the in FIFO is empty. -/
theorem controlWord_of_headOffsets (s : State) {off : Nat} (hfifo : s.mu.inFifo = []) (h : off ∈ headOffsets) :
    s.controlWord off = 0 := by
  have hwords : s.mu.headWords = [] := by
    simp only [MessageUnit.headWords, hfifo]
  have hpayload : s.mu.headPayload = [] := by
    simp only [MessageUnit.headPayload, hfifo]
  have hrange : ∀ n ∈ headOffsets, (0x102 ≤ n ∧ n ≤ 0x10C) ∨ (0x110 ≤ n ∧ n ≤ 0x12F) := by
    decide
  obtain hword | hbyte := hrange off h
  · rw [controlWord_head s hword, hwords, List.getD_nil]
  · rw [controlWord_headPayload s hbyte, hpayload, wordAt, List.getD_nil, List.getD_nil]
    rfl

/-- The offsets at which `State.controlWord` has one word. -/
def constantOffsets : List Nat :=
  [0x000, 0x002, 0x004, 0x006, 0x020, 0x022, 0x024, 0x058, 0x060, 0x062, 0x064, 0x080, 0x082, 0x084, 0x0A0, 0x0AA, 0x0AC,
    0x0AE, 0x0B0, 0x0B2, 0x0B4, 0x0B6, 0x0C0, 0x0C2, 0x0C4, 0x0C6, 0x0C8, 0x0CA, 0x100]

/-- The first and last offsets of the ranges in which `State.controlWord` has words. -/
def rangeOffsets : List (Nat × Nat) :=
  [(0x008, 0x018), (0x040, 0x056), (0x066, 0x074), (0x0A2, 0x0A8), (0x0D0, 0x0EF), (0x102, 0x10C), (0x110, 0x12F),
    (0x200, 0x2FF)]

/-- `State.controlWord` has a word for the offset. -/
def hasWord (off : Nat) : Bool :=
  constantOffsets.contains off || rangeOffsets.any fun range => decide (range.1 ≤ off ∧ off ≤ range.2)

theorem controlWord_of_hasWord_eq_false (s : State) {off : Nat} (h : hasWord off = false) : s.controlWord off = 0 := by
  simp only [hasWord, constantOffsets, rangeOffsets, List.contains_cons, List.contains_nil, Bool.or_false, List.any_cons,
    List.any_nil, Bool.or_eq_false_iff, decide_eq_false_iff_not, beq_eq_false_iff_ne, ne_eq] at h
  simp only [State.controlWord, h, if_false]

theorem offset_of_hasWord {off : Nat} (heven : off % 2 = 0) (h : hasWord off = true) :
    off ∈ mapOffsets ∨ off ∈ headOffsets ∨ off = 0x084 := by
  have hbound : off < 0x300 := by
    have hconstant : ∀ n ∈ constantOffsets, n < 0x300 := by decide
    have hrange : ∀ range ∈ rangeOffsets, range.2 < 0x300 := by decide
    simp only [hasWord, Bool.or_eq_true, List.contains_iff_mem, List.any_eq_true, decide_eq_true_eq] at h
    obtain hoff | ⟨range, hmem, hoff⟩ := h
    · exact hconstant off hoff
    · exact hoff.2.trans_lt (hrange range hmem)
  have hall : ((List.range 0x300).all fun n => decide (n % 2 = 1) || !hasWord n || mapOffsets.contains n ||
      headOffsets.contains n || decide (n = 0x084)) = true := by
    decide +kernel
  have hoff := List.all_eq_true.mp hall off (List.mem_range.mpr hbound)
  simpa [h, heven, or_assoc] using hoff

/-- A word that the map does not name and that is not the updated-window word reads 0. -/
theorem controlWord_of_not_mem_map (s : State) {off : Nat} (heven : off % 2 = 0) (hupdated : off ≠ 0x084)
    (hmap : ∀ v : Word, (off, v) ∉ s.controlMap) : s.controlWord off = 0 := by
  by_cases hword : hasWord off = true
  swap
  · exact controlWord_of_hasWord_eq_false s (Bool.eq_false_of_not_eq_true hword)
  obtain hoff | hhead | hoff := offset_of_hasWord heven hword
  · obtain ⟨v, hv⟩ := mem_controlMap_of_offset s (Or.inl hoff)
    exact absurd hv (hmap v)
  · by_cases hfifo : s.mu.inFifo = []
    · exact controlWord_of_headOffsets s hfifo hhead
    · obtain ⟨v, hv⟩ := mem_controlMap_of_offset s (Or.inr ⟨hhead, hfifo⟩)
      exact absurd hv (hmap v)
  · exact absurd hoff hupdated

/-- The updated-window word has a bit for each window (R171). -/
theorem controlWord_updated (s : State) (w : WinId) : (s.controlWord 0x084).getLsbD w.val = (s.win w).updated := by
  have hfold : ∀ (l : List WinId) (acc : Word),
      (l.foldl (fun (acc : Word) v => if (s.win v).updated then acc ||| ((1 <<< v.val : Nat) : Word) else acc) acc).getLsbD
        w.val = (acc.getLsbD w.val || (decide (w ∈ l) && (s.win w).updated)) := by
    intro l
    induction l with
    | nil => simp
    | cons v rest ih =>
      intro acc
      have hbit : (if (s.win v).updated then acc ||| ((1 <<< v.val : Nat) : Word) else acc).getLsbD w.val =
          (acc.getLsbD w.val || (decide (w = v) && (s.win w).updated)) := by
        by_cases hwv : w = v
        · subst hwv
          by_cases hup : (s.win w).updated = true
          · rw [if_pos hup, getLsbD_or_bit acc w.isLt, hup]
            simp
          · rw [if_neg hup, Bool.eq_false_of_not_eq_true hup]
            simp
        · have hval : w.val ≠ v.val := fun h => hwv (Fin.ext h)
          by_cases hup : (s.win v).updated = true
          · rw [if_pos hup, getLsbD_or_bit acc w.isLt, decide_eq_false hwv, decide_eq_false hval]
            simp
          · rw [if_neg hup, decide_eq_false hwv]
            simp
      rw [List.foldl_cons, ih, hbit]
      by_cases hwv : w = v <;> cases (s.win w).updated <;> simp [hwv]
  change s.updatedWord.getLsbD w.val = _
  rw [State.updatedWord]
  exact (hfold allWindows 0).trans (by simp [mem_allWindows w])

end Sys2Proof.Machine
end

section
/-!
Reads of the control area with and without a capture (R25, R52, R178 to R181), and the window status record (R51).
-/

namespace Sys2Proof.Machine

/-! ### Reads -/

theorem State.controlRead_eq {s : State} (off : Nat) {be : BitVec 2} (value : Word) (h : be ≠ 0) :
    s.controlRead off be value = { s with lp := { s.lp.served false (controlAddr off) be 0 with
      dataOut := { low := if be.getLsbD 0 then some (value.setWidth 8) else none,
                   high := if be.getLsbD 1 then some ((value >>> 8).setWidth 8) else none } } } := by
  rw [State.controlRead, driveWord_of_ne h]
  rfl

/-- A read of neither byte (R178). -/
theorem State.controlRead_none (s : State) (off : Nat) (value : Word) :
    s.controlRead off 0 value = { s with lp := { s.lp.served false (controlAddr off) 0 0 with
      dataOut := { low := some 0, high := some 0 } } } := rfl

theorem statusOffset_controlAddr (w : WinId) (i : Nat) :
    controlAddr (statusOffset w i) = 0x8100 + BitVec.ofNat 16 (8 * w.val + i) := by
  apply BitVec.eq_of_toNat_eq
  rw [controlAddr, statusOffset, BitVec.toNat_add, BitVec.toNat_ofNat, BitVec.toNat_ofNat,
    show (0x8100 : BitVec 16).toNat = 0x8100 from rfl]
  omega

section Port
variable {s : State} (hport : s.idlePort)
include hport

theorem exec_lineTimeLowRead (be : BitVec 2) :
    exec (.lineTimeLowRead be) s =
      .next (if be = 0 then s.controlRead 0x022 be (s.li.lineTime.setWidth 16)
        else (s.controlRead 0x022 be (s.li.lineTime.setWidth 16)).captureTime) := by
  simp only [exec, execLineTimeLowRead, State.portFree_of_idlePort hport, if_true]

theorem exec_lineTimeHighRead (be : BitVec 2) :
    exec (.lineTimeHighRead be) s =
      .next (if be = 0 then s.controlRead 0x024 be s.timeHigh else (s.controlRead 0x024 be s.timeHigh).releaseTime) := by
  simp only [exec, execLineTimeHighRead, State.portFree_of_idlePort hport, if_true]

theorem exec_statusRecordFirstRead (w : WinId) (be : BitVec 2) :
    exec (.statusRecordFirstRead w be) s =
      .next (if be = 0 then s.controlRead (statusOffset w 0) be (s.statusWords w)[(0 : Fin 8)]
        else (s.controlRead (statusOffset w 0) be (s.statusWords w)[(0 : Fin 8)]).captureRecord w) := by
  simp only [exec, execStatusRecordFirstRead, State.portFree_of_idlePort hport, if_true]

theorem exec_statusRecordWordRead (w : WinId) {i : Fin 8} (hi : i ≠ 0) (be : BitVec 2) :
    exec (.statusRecordWordRead w i be) s = .next (s.controlRead (statusOffset w i.val) be (s.statusWord w i)) := by
  rw [exec, execStatusRecordWordRead, if_pos ⟨State.portFree_of_idlePort hport, hi⟩]

theorem exec_statusRecordWordRead_of_word (w : WinId) {i : Fin 8} (hi : i ≠ 0) {be : BitVec 2} (hbe : be ≠ 0) {value : Word}
    (hvalue : s.statusWord w i = value) :
    exec (.statusRecordWordRead w i be) s =
      .next { s with lp := { s.lp.served false (0x8100 + BitVec.ofNat 16 (8 * w.val + i.val)) be 0 with
        dataOut := { low := if be.getLsbD 0 then some (value.setWidth 8) else none,
                     high := if be.getLsbD 1 then some ((value >>> 8).setWidth 8) else none } } } := by
  rw [exec_statusRecordWordRead hport w hi, State.controlRead_eq _ _ hbe, statusOffset_controlAddr, hvalue]

theorem exec_controlRead {a : BitVec 16} (be : BitVec 2) (ha : 0x8000 ≤ a.toNat) :
    exec (.localReplicaRead a be) s = .next (s.readControl a be) := by
  have hreplica : ¬inReplica a = true := by
    rw [inReplica_iff]
    omega
  simp only [exec, execLocalReplicaRead, State.portFree_of_idlePort hport, if_true, if_neg hreplica]

end Port

/-! ### A read cycle above the replica -/

theorem State.readControl_of_ne (s : State) (a : BitVec 16) {be : BitVec 2} (h : be ≠ 0) :
    s.readControl a be =
      (s.controlRead (controlOffset a) be (s.controlWord (controlOffset a))).afterRead (controlOffset a) := by
  rw [State.readControl, if_neg h]

theorem State.afterRead_low (s : State) : s.afterRead 0x022 = s.captureTime := rfl

theorem State.afterRead_high (s : State) : s.afterRead 0x024 = s.releaseTime := rfl

theorem State.afterRead_record (s : State) (w : WinId) : s.afterRead (0x200 + 16 * w.val) = s.captureRecord w := by
  have hw : (BitVec.ofNat 4 ((0x200 + 16 * w.val - 0x200) / 16)).toFin = w := by
    rw [show (0x200 + 16 * w.val - 0x200) / 16 = w.val by omega]
    exact Fin.ext (Nat.mod_eq_of_lt w.isLt)
  rw [State.afterRead, if_neg (by omega), if_neg (by omega), if_pos (by omega), hw]

theorem State.afterRead_other (s : State) {off : Nat} (hlow : off ≠ 0x022) (hhigh : off ≠ 0x024)
    (hrecord : ∀ w : WinId, off ≠ 0x200 + 16 * w.val) : s.afterRead off = s := by
  rw [State.afterRead, if_neg hlow, if_neg hhigh, if_neg]
  rintro ⟨hfirst, hlast, hstart⟩
  exact hrecord ⟨(off - 0x200) / 16, by omega⟩ (by simp only; omega)

/-- The first word of a record is never the captured one (R52). -/
theorem controlWord_statusFirst (s : State) (w : WinId) :
    s.controlWord (0x200 + 16 * w.val) = (s.statusWords w)[(0 : Fin 8)] := by
  refine (controlWord_status s w 0).trans ?_
  rw [State.statusWord]
  cases s.lp.capture with
  | none => rfl
  | some c => exact if_neg fun h => h.2 rfl

/-! ### The window status record (R51) -/

/-- Two bytes of the record stand in each word. -/
theorem statusWords_eq (s : State) (w : WinId) (i : Fin 8) :
    (s.statusWords w)[i] = wordAt (s.statusBytes w) i.val := by
  simp [State.statusWords]

/-- The bits the record shows for window `w`'s role (R51, log 9). -/
def State.shownRole (s : State) (w : WinId) : BitVec 2 :=
  if (s.win w).standing = .notLoaded then 0 else BitVec.ofNat 2 (shownRoleBits (s.win w).desc.roleCode)

theorem shownRoleBits_lt (code : Byte) : shownRoleBits code < 4 := by
  rw [shownRoleBits]
  split
  · omega
  · exact (Config.shownRole code).isLt

theorem State.shownRole_of_role {s : State} {w : WinId} (hcode : (s.win w).desc.roleCode.toNat ≤ 3)
    (hloaded : (s.win w).standing ≠ .notLoaded) : s.shownRole w = (s.win w).desc.roleCode.setWidth 2 := by
  rw [State.shownRole, if_neg hloaded, shownRoleBits, if_pos hcode, BitVec.ofNat_toNat]

theorem ofNat_head : ∀ (result role : Fin 4) (reason : Fin 16),
    BitVec.ofNat 8 (result.val + 4 * role.val + 16 * reason.val) =
      BitVec.ofNat 4 reason.val ++ BitVec.ofNat 2 role.val ++ BitVec.ofNat 2 result.val := by
  decide +kernel

theorem ofNat_counts : ∀ (retry claims : Fin 4) (behind : Fin 5),
    BitVec.ofNat 8 (retry.val + 4 * behind.val + 32 * claims.val) =
      (0 : BitVec 1) ++ BitVec.ofNat 2 claims.val ++ BitVec.ofNat 3 behind.val ++ BitVec.ofNat 2 retry.val := by
  decide +kernel

theorem ofNat_context : ∀ (i : Fin 2) (deferred : Fin 25),
    BitVec.ofNat 8 ((i.val + 1) + 4 * deferred.val) =
      (0 : BitVec 1) ++ BitVec.ofNat 5 deferred.val ++ BitVec.ofNat 2 (i.val + 1) := by
  decide +kernel

theorem ofNat_flags : ∀ markNow contextWait keep returned updated : Bool,
    BitVec.ofNat 8 (flagNat markNow + 2 * flagNat contextWait + 4 * flagNat keep + 8 * flagNat returned +
      16 * flagNat updated) =
      (0 : BitVec 3) ++ BitVec.ofBool updated ++ BitVec.ofBool returned ++ BitVec.ofBool keep ++ BitVec.ofBool contextWait ++
        BitVec.ofBool markNow := by
  decide +kernel

theorem ofNat_sync (sync : SyncState) (gap : Option GapOrigin) (expected : Bool) :
    BitVec.ofNat 8 (sync.code + 8 * gapCode gap + 32 * flagNat expected) =
      (0 : BitVec 2) ++ BitVec.ofBool expected ++ BitVec.ofNat 2 (gapCode gap) ++ BitVec.ofNat 3 sync.code := by
  have hfinite : ∀ (sync : Fin 6) (gap : Fin 3) (expected : Bool),
      BitVec.ofNat 8 (sync.val + 8 * gap.val + 32 * flagNat expected) =
        (0 : BitVec 2) ++ BitVec.ofBool expected ++ BitVec.ofNat 2 gap.val ++ BitVec.ofNat 3 sync.val := by
    decide +kernel
  have hsync : sync.code < 6 := by cases sync <;> decide
  have hgap : gapCode gap < 3 := by rcases gap with _ | (_ | _) <;> decide
  exact hfinite ⟨_, hsync⟩ ⟨_, hgap⟩ expected

/-- The bits that name the context window `w` is bound to (R51). -/
def State.contextBits (s : State) (w : WinId) : BitVec 2 :=
  (s.boundCtx w).elim 0 fun i => BitVec.ofNat 2 (i.val + 1)

theorem ofNat_contextByte (s : State) (w : WinId) (h : ∀ b : Binding, s.bindingOf w = some b → b.deferred.length ≤ 24) :
    BitVec.ofNat 8 (s.contextByte w) =
      (0 : BitVec 1) ++ BitVec.ofNat 5 ((s.bindingOf w).elim 0 fun b => b.deferred.length) ++ s.contextBits w := by
  cases hctx : s.boundCtx w with
  | none =>
    have hbinding : s.bindingOf w = none := by rw [State.bindingOf, hctx, Option.bind_none]
    simp [State.contextByte, State.contextBits, hctx, hbinding]
  | some i =>
    have hlength : ((s.bindingOf w).elim 0 fun b => b.deferred.length) < 25 := by
      cases hbinding : s.bindingOf w with
      | none => simp
      | some b => exact Nat.lt_succ_of_le (h b hbinding)
    simp only [State.contextByte, State.contextBits, hctx]
    exact ofNat_context i ⟨_, hlength⟩

/-- The counts of window `w` are in their ranges. -/
structure State.RecordFits (s : State) (w : WinId) : Prop where
  retry : (s.win w).retry ≤ 3
  behind : (s.win w).behind ≤ 4
  claims : (s.win w).claimAttempts ≤ 3
  updates : (s.win w).updateCount ≤ 255
  deferred : ∀ b : Binding, s.bindingOf w = some b → b.deferred.length ≤ 24

theorem map_statusBytes (s : State) (w : WinId) (h : s.RecordFits w) :
    (s.statusBytes w).map (BitVec.ofNat 8) = s.recordBytes w (s.shownRole w) := by
  simp only [State.statusBytes, State.recordBytes, List.map_append]
  refine congrArg₂ (· ++ ·) (congrArg₂ (· ++ ·) ?_ ?_) rfl
  · refine congrArg₂ List.cons ?_ (congrArg₂ List.cons ?_ rfl)
    · have hrole := shownRoleBits_lt (s.win w).desc.roleCode
      rw [State.shownRole]
      cases hst : (s.win w).standing with
      | notLoaded => simp [Standing.code, Standing.reason]
      | off => exact ofNat_head 1 ⟨_, hrole⟩ 0
      | rejected n => exact ofNat_head 2 ⟨_, hrole⟩ ⟨n.val, by omega⟩
      | enabled => exact ofNat_head 3 ⟨_, hrole⟩ 0
    · by_cases hst : (s.win w).standing = .notLoaded
      · simp [hst]
      · simp [hst]
  · by_cases hst : (s.win w).standing = .enabled
    · rw [if_pos hst, if_pos (show (s.win w).enabled = true from decide_eq_true hst)]
      simp only [State.statusTail, List.map_cons, List.map_nil, BitVec.ofNat_toNat, BitVec.setWidth_eq, Window.flagByte,
        ofNat_flags]
      refine congrArg₂ List.cons ?_ (congrArg₂ List.cons ?_ (congrArg₂ List.cons rfl (congrArg₂ List.cons rfl
        (congrArg₂ List.cons rfl (congrArg₂ List.cons rfl (congrArg₂ List.cons rfl (congrArg₂ List.cons rfl
        (congrArg₂ List.cons ?_ (congrArg₂ List.cons ?_ rfl)))))))))
      · cases (s.win w).ownership <;> rfl
      · refine (ofNat_sync _ _ _).trans (congrArg₂ (· ++ ·) (congrArg _ ?_) ?_)
        · rcases (s.win w).gapOrigin with _ | (_ | _) <;> rfl
        · cases (s.win w).sync <;> rfl
      · exact ofNat_counts ⟨_, Nat.lt_succ_of_le h.retry⟩ ⟨_, Nat.lt_succ_of_le h.claims⟩ ⟨_, Nat.lt_succ_of_le h.behind⟩
      · refine (ofNat_contextByte s w h.deferred).trans (congrArg _ ?_)
        rw [State.contextBits]
        cases s.boundCtx w <;> rfl
    · rw [if_neg hst, if_neg (show ¬(s.win w).enabled = true from ne_true_of_eq_false (decide_eq_false hst))]
      rfl

theorem statusWords_recordBytes (s : State) (w : WinId) (h : s.RecordFits w) (i : Fin 8) :
    (s.statusWords w)[i] =
      (s.recordBytes w (s.shownRole w)).getD (2 * i.val + 1) 0 ++ (s.recordBytes w (s.shownRole w)).getD (2 * i.val) 0 := by
  have hbyte (k : Nat) : BitVec.ofNat 8 ((s.statusBytes w).getD k 0) = (s.recordBytes w (s.shownRole w)).getD k 0 := by
    rw [← map_statusBytes s w h, List.getD_eq_getElem?_getD, List.getD_eq_getElem?_getD, List.getElem?_map]
    cases (s.statusBytes w)[k]? <;> rfl
  rw [statusWords_eq, wordAt, hbyte, hbyte, wordOf]

/-! ### The obligation -/

/-- Settles O53. -/
theorem capturingReads : Obligations.CapturingReads := by
  unfold Obligations.CapturingReads
  refine ⟨fun s a be hport ha => ?_, fun s off heven => ?_, fun s be hport hbe => ?_, fun s hport => ?_,
    fun s w hretry hbehind hclaims hupdates hdeferred => ?_⟩
  · have hoff : 2 * a.toNat - 0x10000 = controlOffset a := (controlOffset_eq a).symm
    rw [hoff]
    intro off value driven
    rw [exec_controlRead hport be ha, exec_lineTimeLowRead hport, exec_lineTimeHighRead hport]
    have hread (hbe : be ≠ 0) : s.readControl a be = (s.controlRead off be (s.controlWord off)).afterRead off :=
      s.readControl_of_ne a hbe
    refine ⟨?_, fun hbe hlow => ?_, fun hbe hhigh => ?_, fun w hbe hrecord => ?_, fun hbe hlow hhigh hrecord => ?_⟩
    · rintro rfl
      rw [State.readControl, if_pos rfl, State.controlRead_none, controlAddr_controlOffset ha]
    · rw [hread hbe, hlow, State.afterRead_low, if_neg hbe]
      rfl
    · rw [hread hbe, hhigh, State.afterRead_high, if_neg hbe]
      rfl
    · rw [exec_statusRecordFirstRead hport, hread hbe, hrecord, State.afterRead_record, if_neg hbe]
      rw [controlWord_statusFirst, statusOffset, Nat.mul_zero, Nat.add_zero]
    · rw [hread hbe, State.afterRead_other _ hlow hhigh hrecord, State.controlRead_eq _ _ hbe, controlAddr_controlOffset ha]
  · exact ⟨fun v hv => controlWord_of_mem_map s (off, v) hv,
      fun hupdated w => by rw [hupdated]; exact controlWord_updated s w,
      fun hupdated hmap => controlWord_of_not_mem_map s heven hupdated hmap⟩
  · rw [exec_lineTimeLowRead hport, exec_lineTimeHighRead hport, if_neg hbe, if_neg hbe, State.controlRead_eq _ _ hbe,
      State.controlRead_eq _ _ hbe]
    refine ⟨rfl, rfl, fun w => ?_, fun w i hi => ?_⟩
    · rw [exec_statusRecordFirstRead hport, if_neg hbe, State.controlRead_eq _ _ hbe, statusOffset_controlAddr]
      rfl
    · refine exec_statusRecordWordRead_of_word hport w hi hbe ?_
      unfold State.statusWord
      cases s.lp.capture with
      | none => rfl
      | some c => exact if_congr (and_iff_left hi) rfl rfl
  · refine ⟨?_, ?_, fun w => ?_, fun w i hi => ?_⟩
    · refine (exec_lineTimeLowRead hport 0).trans ?_
      rw [if_pos rfl, State.controlRead_none]
      rfl
    · refine (exec_lineTimeHighRead hport 0).trans ?_
      rw [if_pos rfl, State.controlRead_none]
      rfl
    · refine (exec_statusRecordFirstRead hport w 0).trans ?_
      rw [if_pos rfl, State.controlRead_none, statusOffset_controlAddr]
      rfl
    · refine (exec_statusRecordWordRead hport w hi 0).trans ?_
      rw [State.controlRead_none, statusOffset_controlAddr]
  · have hfits : s.RecordFits w := ⟨hretry, hbehind, hclaims, hupdates, hdeferred⟩
    exact ⟨s.shownRole w, State.shownRole_of_role, fun hst => by rw [State.shownRole, if_pos hst],
      statusWords_recordBytes s w hfits⟩

end Sys2Proof.Machine
end

section
/-!
What SOFT_RESTART does to the Receive Hold, the replica's arbiter and the post queue (R31, R37, R73, R190).
-/

namespace Sys2Proof.Machine

/-! ### The arbiter without a requester -/

/-- Neither a waiting request nor the grant is `r`'s. -/
def Arbiter.Without (b : Arbiter) (r : Requester) : Prop := (∀ q ∈ b.waiting, q.who ≠ r) ∧ b.granted ≠ some r

namespace Arbiter
variable {b : Arbiter} {r : Requester}

theorem mem_of_firstInternal {r' : Requester} (h : b.firstInternal = some r') : ∃ q ∈ b.waiting, q.who = r' := by
  unfold firstInternal at h
  split at h
  · exact nomatch h
  next q rest hwaiting =>
    have hmem (p : Request) (hp : p ∈ q :: rest) : p ∈ b.waiting := List.mem_of_mem_filter (hwaiting ▸ hp)
    split at h
    next hany =>
      obtain ⟨p, hp, hwriter⟩ := List.any_eq_true.mp hany
      simp only [Bool.and_eq_true, decide_eq_true_eq] at hwriter
      exact ⟨p, hmem p (List.mem_cons_of_mem q hp), hwriter.1.trans (Option.some.inj h)⟩
    · exact ⟨q, hmem q List.mem_cons_self, Option.some.inj h⟩

/-- A request that is chosen waits. -/
theorem mem_of_choose {r' : Requester} (h : b.choose = some r') : ∃ q ∈ b.waiting, q.who = r' := by
  unfold choose at h
  split at h
  · exact mem_of_firstInternal h
  next hlocal _ =>
    obtain ⟨q, hq, hwho⟩ := List.any_eq_true.mp hlocal
    exact ⟨q, hq, (of_decide_eq_true hwho).trans (Option.some.inj h)⟩
  next hlocal hinternal =>
    split at h
    · obtain ⟨q, hq, hwho⟩ := List.any_eq_true.mp hlocal
      exact ⟨q, hq, (of_decide_eq_true hwho).trans (Option.some.inj h)⟩
    · exact mem_of_firstInternal (hinternal.trans h)

/-- A grant that ends leaves the arbiter without a requester that does not wait. -/
theorem release_without (h : ∀ q ∈ b.waiting, q.who ≠ r) : b.release.Without r := by
  cases hchoice : b.choose with
  | none =>
    rw [release_of_none hchoice]
    exact ⟨h, nofun⟩
  | some r' =>
    rw [release_of_choice hchoice]
    obtain ⟨q, hq, hwho⟩ := mem_of_choose hchoice
    exact ⟨fun p hp => h p (List.mem_of_mem_filter hp), fun hr => h q hq (hwho.trans (Option.some.inj hr))⟩

theorem withdraw_waiting (r : Requester) : ∀ q ∈ (b.withdraw r).waiting, q.who ≠ r := fun q hq => by
  simpa using (List.mem_filter.1 hq).2

theorem Without.withdraw (h : b.Without r) (r' : Requester) : (b.withdraw r').Without r :=
  ⟨fun q hq => h.1 q (List.mem_of_mem_filter hq), h.2⟩

/-- The arbiter after `r`'s request is withdrawn, or its grant ended. -/
def dismiss (b : Arbiter) (r : Requester) : Arbiter :=
  if b.granted = some r then (b.withdraw r).release else b.withdraw r

theorem dismiss_without (r : Requester) : (b.dismiss r).Without r := by
  unfold dismiss
  split
  · exact release_without (withdraw_waiting r)
  next h => exact ⟨withdraw_waiting r, h⟩

theorem Without.dismiss (h : b.Without r) (r' : Requester) : (b.dismiss r').Without r := by
  unfold Arbiter.dismiss
  split
  · exact release_without (h.withdraw r').1
  · exact h.withdraw r'

end Arbiter

/-! ### The frame in handling ends (R31) -/

/-- What a context is used for. -/
def RefreshContext.use : RefreshContext → Option (Bool × WinId)
  | .free => none
  | .reserved w => some (false, w)
  | .bound b => some (true, b.window)

/-- `y` is `x` but for what a record's write and an update note change. -/
def Window.Follows (x y : Window) : Prop :=
  y = { x with expected := y.expected, behind := y.behind, updated := y.updated, updateCount := y.updateCount }

theorem Window.Follows.written {x y : Window} (h : x.Follows y) (e : Option Word) (b : Nat) :
    x.Follows { y with expected := e, behind := b } := by
  rw [Window.Follows] at *
  rw [h]

theorem Window.Follows.noted {x y : Window} (h : x.Follows y) (n : Nat) :
    x.Follows { y with updated := true, updateCount := n } := by
  rw [Window.Follows] at *
  rw [h]

/-- `t` is `s` after an outstanding write of window `w` ended, made if it was granted. -/
structure State.WriteEnds (s t : State) (w : WinId) : Prop where
  eq : t = { s with rm := t.rm, rh := t.rh, windows := t.windows, contexts := t.contexts, en := t.en }
  win : (s.win w).Follows (t.win w)
  others : ∀ v : WinId, v ≠ w → t.win v = s.win v
  ctx : ∀ i : Fin 2, (t.ctx i).use = (s.ctx i).use
  counters : t.en.counters = s.en.counters
  sticky : t.en.sticky = s.en.sticky
  mem : s.rm.arb.granted ≠ some .writer → t.rm.mem = s.rm.mem

namespace State.WriteEnds
variable {s t : State} {w : WinId}

theorem refl (s : State) (w : WinId) : s.WriteEnds s w :=
  ⟨rfl, rfl, fun _ _ => rfl, fun _ => rfl, rfl, rfl, fun _ => rfl⟩

theorem modArb (h : s.WriteEnds t w) (f : Arbiter → Arbiter) : s.WriteEnds (t.modArb f) w where
  eq := by rw [h.eq]; rfl
  win := h.win
  others := h.others
  ctx := h.ctx
  counters := h.counters
  sticky := h.sticky
  mem := h.mem

theorem popHold (h : s.WriteEnds t w) : s.WriteEnds t.popHold w where
  eq := by rw [h.eq]; rfl
  win := h.win
  others := h.others
  ctx := h.ctx
  counters := h.counters
  sticky := h.sticky
  mem := h.mem

theorem updateNote (h : s.WriteEnds t w) : s.WriteEnds (t.updateNote w) w := by
  rw [State.updateNote_eq_noted]
  have hself : (t.noted w).win w =
      { t.win w with updated := true, updateCount := min 255 ((t.win w).updateCount + 1) } := by simp [State.noted, State.win]
  have hnote : (t.noted w).en.counters = t.en.counters ∧ (t.noted w).en.sticky = t.en.sticky := by
    rw [State.noted]
    split <;> exact ⟨rfl, rfl⟩
  refine ⟨?_, ?_, fun v hv => ?_, h.ctx, hnote.1.trans h.counters, hnote.2.trans h.sticky, h.mem⟩
  · rw [h.eq]
    rfl
  · rw [hself]
    exact h.win.noted _
  · refine Eq.trans ?_ (h.others v hv)
    exact t.win_modWin_of_ne (fun _ => { t.win w with updated := true, updateCount := min 255 ((t.win w).updateCount + 1) }) hv

theorem writeReplica (h : s.WriteEnds t w) (hgranted : s.rm.arb.granted = some .writer) (a : Nat) (bytes : List Byte) :
    s.WriteEnds (t.writeReplica a bytes) w where
  eq := by rw [h.eq]; rfl
  win := h.win
  others := h.others
  ctx := h.ctx
  counters := h.counters
  sticky := h.sticky
  mem hnot := absurd hgranted hnot

/-- A binding changed in what it has received keeps its window. -/
theorem modBinding (h : s.WriteEnds t w) {f : Binding → Binding} (hf : ∀ b : Binding, (f b).window = b.window) :
    s.WriteEnds (t.modBinding w f) w := by
  have hctx (i : Fin 2) : ((t.modBinding w f).ctx i).use = (t.ctx i).use := by
    unfold State.modBinding
    cases hbound : t.boundCtx w with
    | none => rfl
    | some j =>
      obtain ⟨b, hb, -⟩ := State.boundCtx_some hbound
      simp only [hb]
      rw [State.ctx_setCtx_eq]
      split
      next hij => rw [hij, hb, RefreshContext.use, RefreshContext.use, hf]
      · rfl
  have hframe := t.modBinding_frame w f
  have hwin (v : WinId) : (t.modBinding w f).win v = t.win v := by rw [hframe]; rfl
  have hen : (t.modBinding w f).en = t.en := by rw [hframe]
  have hrm : (t.modBinding w f).rm = t.rm := by rw [hframe]
  refine ⟨?_, by rw [hwin]; exact h.win, fun v hv => (hwin v).trans (h.others v hv), fun i => (hctx i).trans (h.ctx i),
    (congrArg EventUnit.counters hen).trans h.counters, (congrArg EventUnit.sticky hen).trans h.sticky, fun hnot => ?_⟩
  · rw [hframe, h.eq]
  · rw [hrm, h.mem hnot]

theorem writerEffect {k : Work} (h : s.WriteEnds t k.window) (hgranted : s.rm.arb.granted = some .writer) :
    s.WriteEnds (t.writerEffect k) k.window := by
  cases k with
  | record w src r rest applied adopted =>
    have hwritten := h.writeReplica hgranted ((t.win w).localAddr r.offset.toNat) r.data
    rw [State.writerEffect]
    refine ⟨?_, ?_, fun v hv => ?_, hwritten.ctx, hwritten.counters, hwritten.sticky, hwritten.mem⟩
    · rw [hwritten.eq]
      rfl
    · rw [Work.window, State.win_modWin]
      exact hwritten.win.written _ _
    · exact (State.win_modWin_of_ne _ _ hv).trans (hwritten.others v hv)
  | page w i data => exact (h.writeReplica hgranted _ data).modBinding fun b => rfl
  | deferred w r rest => exact h.writeReplica hgranted _ r.data

end State.WriteEnds

theorem State.writerEffect_arb (s : State) (k : Work) : (s.writerEffect k).rm.arb = s.rm.arb := by
  cases k with
  | record => rfl
  | page w i data => rw [State.writerEffect, State.modBinding_frame]; rfl
  | deferred => rfl

/-- The grant in progress makes its write, and the request goes (R31). -/
def State.writeSettled (s : State) (k : Work) : State :=
  if (s.withdrawRequest .writer).granted .writer then ((s.withdrawRequest .writer).writerEffect k).releaseGrant
  else s.withdrawRequest .writer

theorem State.endWriting_eq (s : State) (k : Work) :
    s.endWriting k = (s.writeSettled k).popHold ∨ s.endWriting k = ((s.writeSettled k).updateNote k.window).popHold := by
  simp only [State.endWriting, State.writeSettled]
  generalize (if (s.withdrawRequest .writer).granted .writer = true then _ else _ : State) = t
  cases k with
  | record w src r rest applied adopted =>
    simp only
    split
    · exact Or.inr rfl
    · exact Or.inl rfl
  | page => exact Or.inl rfl
  | deferred => exact Or.inl rfl

theorem State.writeSettled_ends (s : State) (k : Work) : s.WriteEnds (s.writeSettled k) k.window := by
  have hwithdrawn : s.WriteEnds (s.withdrawRequest .writer) k.window := (State.WriteEnds.refl s k.window).modArb _
  unfold State.writeSettled
  split
  next hgranted => exact (hwithdrawn.writerEffect (of_decide_eq_true hgranted)).modArb _
  · exact hwithdrawn

theorem State.writeSettled_arb (s : State) (k : Work) : (s.writeSettled k).rm.arb = s.rm.arb.dismiss .writer := by
  unfold State.writeSettled Arbiter.dismiss
  by_cases hgranted : s.rm.arb.granted = some .writer
  · rw [if_pos (show (s.withdrawRequest .writer).granted .writer = true from decide_eq_true hgranted), if_pos hgranted]
    exact congrArg Arbiter.release ((s.withdrawRequest .writer).writerEffect_arb k)
  · rw [if_neg (show ¬(s.withdrawRequest .writer).granted .writer = true from fun h => hgranted (of_decide_eq_true h)),
      if_neg hgranted]
    rfl

theorem State.endWriting_ends (s : State) (k : Work) : s.WriteEnds (s.endWriting k) k.window := by
  obtain h | h := s.endWriting_eq k
  · rw [h]
    exact (s.writeSettled_ends k).popHold
  · rw [h]
    exact (s.writeSettled_ends k).updateNote.popHold

theorem State.endWriting_arb (s : State) (k : Work) : (s.endWriting k).rm.arb = s.rm.arb.dismiss .writer := by
  obtain h | h := s.endWriting_eq k
  · rw [h]
    exact s.writeSettled_arb k
  · rw [h, State.updateNote_eq_noted]
    exact s.writeSettled_arb k

theorem State.dropPageRead_arb (s : State) : s.dropPageRead.rm.arb = s.rm.arb.dismiss .sweepReader := by
  simp only [State.dropPageRead, Arbiter.dismiss]
  by_cases hgranted : s.rm.arb.granted = some .sweepReader
  · rw [if_pos (show (s.withdrawRequest .sweepReader).granted .sweepReader = true from decide_eq_true hgranted),
      if_pos hgranted]
    rfl
  · rw [if_neg (show ¬(s.withdrawRequest .sweepReader).granted .sweepReader = true from
      fun h => hgranted (of_decide_eq_true h)), if_neg hgranted]
    rfl

/-! ### SOFT_RESTART's hold (R31, R37) -/

/-- The frame in handling, if there is one, ends. -/
def State.handlingEnded (s : State) : State :=
  s.rh.work.elim (s.withdrawRequest .sweepReader) fun k => (s.withdrawRequest .sweepReader).endWriting k

theorem State.restartHold_eq (s : State) :
    s.restartHold = { s.handlingEnded.dropPageRead with rh := { slots := [], work := none } } := by
  have hwork : (s.withdrawRequest .sweepReader).rh.work = s.rh.work := rfl
  simp only [State.restartHold, State.handlingEnded, hwork]
  cases s.rh.work <;> rfl

/-- `t` is `s` with the hold emptied. -/
structure State.HoldEnds (s t : State) : Prop where
  eq : t = { s with rm := t.rm, rh := { slots := [], work := none }, windows := t.windows, contexts := t.contexts, en := t.en }
  idle : s.rh.work = none → t.windows = s.windows ∧ t.contexts = s.contexts ∧ t.en = s.en
  win : ∀ w : WinId, (s.win w).Follows (t.win w)
  others : ∀ w : WinId, (∀ k : Work, s.rh.work = some k → k.window ≠ w) → t.win w = s.win w
  ctx : ∀ i : Fin 2, (t.ctx i).use = (s.ctx i).use
  counters : t.en.counters = s.en.counters
  sticky : t.en.sticky = s.en.sticky
  mem : s.rm.arb.granted ≠ some .writer → t.rm.mem = s.rm.mem
  sweepReader : t.rm.arb.Without .sweepReader
  writer : s.rh.work ≠ none → t.rm.arb.Without .writer

/-- The page read is dropped and the hold emptied behind the frame in handling. -/
theorem State.HoldEnds.of_handlingEnded {s u : State} (hu : s.handlingEnded = u)
    (heq : u = { s with rm := u.rm, rh := u.rh, windows := u.windows, contexts := u.contexts, en := u.en })
    (hidle : s.rh.work = none → u.windows = s.windows ∧ u.contexts = s.contexts ∧ u.en = s.en)
    (hwin : ∀ w : WinId, (s.win w).Follows (u.win w))
    (hothers : ∀ w : WinId, (∀ k : Work, s.rh.work = some k → k.window ≠ w) → u.win w = s.win w)
    (hctx : ∀ i : Fin 2, (u.ctx i).use = (s.ctx i).use) (hcounters : u.en.counters = s.en.counters)
    (hsticky : u.en.sticky = s.en.sticky) (hmem : s.rm.arb.granted ≠ some .writer → u.rm.mem = s.rm.mem)
    (hwriter : s.rh.work ≠ none → u.rm.arb.Without .writer) : s.HoldEnds s.restartHold := by
  have hdrop := u.dropPageRead_eq
  have hmem' : u.dropPageRead.rm.mem = u.rm.mem := by simp
  rw [State.restartHold_eq, hu, hdrop]
  refine ⟨?_, hidle, hwin, hothers, hctx, hcounters, hsticky, hmem, ?_, fun h => ?_⟩
  · rw [heq]
  · exact u.dropPageRead_arb ▸ Arbiter.dismiss_without .sweepReader
  · exact u.dropPageRead_arb ▸ (hwriter h).dismiss .sweepReader

theorem State.restartHold_ends (s : State) : s.HoldEnds s.restartHold := by
  cases hwork : s.rh.work with
  | none =>
    have hu : s.handlingEnded = s.withdrawRequest .sweepReader := by rw [State.handlingEnded, hwork, Option.elim_none]
    exact .of_handlingEnded hu rfl (fun _ => ⟨rfl, rfl, rfl⟩) (fun _ => rfl) (fun _ _ => rfl) (fun _ => rfl) rfl rfl
      (fun _ => rfl) (fun h => absurd hwork h)
  | some k =>
    have hu : s.handlingEnded = (s.withdrawRequest .sweepReader).endWriting k := by
      rw [State.handlingEnded, hwork, Option.elim_some]
    have hends := (s.withdrawRequest .sweepReader).endWriting_ends k
    have harb := (s.withdrawRequest .sweepReader).endWriting_arb k
    generalize (s.withdrawRequest .sweepReader).endWriting k = u at hu hends harb
    refine .of_handlingEnded hu hends.eq (fun h => absurd (h.symm.trans hwork) nofun) (fun w => ?_)
      (fun w h => hends.others w (h k hwork).symm) hends.ctx hends.counters hends.sticky hends.mem
      (fun _ => harb ▸ Arbiter.dismiss_without .writer)
    by_cases hw : w = k.window
    · rw [hw]
      exact hends.win
    · rw [hends.others w hw]
      exact rfl

end Sys2Proof.Machine
end

section
/-!
What SOFT_RESTART does to the post queue, the contexts and the ownerships (R73, R90, R98, R124, R152).
-/

namespace Sys2Proof.Machine

/-! ### The post queue (R73) -/

/-- The events of the queue's end. -/
def State.queueDiscarded (s : State) : EventUnit :=
  if s.pq.entries = [] then s.en
  else s.eventIn (s.en.bump .postsDiscarded s.pq.entries.length) { cause := .postsDiscarded }

theorem State.eventIn_counters (s : State) (e : EventUnit) (f : EventFields) : (s.eventIn e f).counters = e.counters := by
  rw [State.eventIn, EventUnit.withEvent]
  split <;> rfl

theorem State.eventIn_sticky (s : State) (e : EventUnit) (f : EventFields) : (s.eventIn e f).sticky = e.sticky := by
  rw [State.eventIn, EventUnit.withEvent]
  split <;> rfl

theorem State.queueDiscarded_counters {s t : State} (hpq : t.pq = s.pq) (hcounters : t.en.counters = s.en.counters)
    (hsticky : t.en.sticky = s.en.sticky) :
    t.queueDiscarded.counters = s.queueDiscarded.counters ∧ t.queueDiscarded.sticky = s.queueDiscarded.sticky := by
  unfold State.queueDiscarded
  rw [hpq]
  split
  · exact ⟨hcounters, hsticky⟩
  · rw [State.eventIn_counters, State.eventIn_counters, State.eventIn_sticky, State.eventIn_sticky]
    simp only [EventUnit.bump, hcounters, hsticky, and_self]

theorem State.markLosers_eq (s : State) :
    ∃ ws : Vector Window 16, s.markLosers = { s with windows := ws } ∧
      ∀ w : WinId, ws[w] = { s.win w with markNow := (s.win w).markNow || s.pq.holds w } := by
  obtain ⟨ws, hfold, hws⟩ := State.foldl_window_steps
    (f := fun t w => if s.pq.holds w then t.modWin w fun x => { x with markNow := true } else t)
    (g := fun w x => { x with markNow := x.markNow || s.pq.holds w }) allWindows (by decide) s fun t _ _ w => by
      cases hholds : s.pq.holds w with
      | true => simp
      | false => exact (State.modWin_self t w _ (by simp)).symm
  exact ⟨ws, hfold, fun w => (hws w).trans (if_pos (mem_allWindows w))⟩

theorem State.emptyQueue_eq {s : State} (hruns : s.li.line.runs) :
    ∃ ws : Vector Window 16,
      s.emptyQueue = { s with pq := { entries := [], mergeHold := false }, windows := ws, en := s.queueDiscarded } ∧
      ∀ w : WinId, ws[w] = { s.win w with markNow := (s.win w).markNow || s.pq.entries.any fun e => decide (e.window = w) } := by
  by_cases hempty : s.pq.entries = []
  · refine ⟨s.windows, ?_, fun w => ?_⟩
    · rw [State.emptyQueue, if_pos hempty, State.queueDiscarded, if_pos hempty]
    · rw [hempty, List.any_nil, Bool.or_false]
      rfl
  · obtain ⟨ws, hmarked, hws⟩ := s.markLosers_eq
    refine ⟨ws, ?_, hws⟩
    rw [State.emptyQueue, if_neg hempty, hmarked, State.queueDiscarded, if_neg hempty]
    exact State.recordEvent_of_runs (s := { s with
      windows := ws, pq := ⟨[], false⟩, en := s.en.bump .postsDiscarded s.pq.entries.length }) hruns _

/-! ### The bound contexts (R90, R98, R124) -/

/-- The window in GAP with a new delay (R86). -/
def Window.gapped (x : Window) (delay : WaitTimer) : Window :=
  { x with sync := .gap, gapOrigin := some .here, contextWait := false, wait := delay }

/-- The window with the new delay that a freed context gives it if it waits for one (R90). -/
def Window.redrawn (x : Window) (delay : WaitTimer) : Window :=
  if x.contextWait then { x with contextWait := false, wait := delay } else x

theorem Window.gapped_gapped (x : Window) (d : WaitTimer) : (x.gapped d).gapped d = x.gapped d := rfl

theorem Window.redrawn_gapped (x : Window) (d : WaitTimer) : (x.gapped d).redrawn d = x.gapped d := rfl

theorem Window.gapped_redrawn (x : Window) (d : WaitTimer) : (x.redrawn d).gapped d = x.gapped d := by
  unfold Window.redrawn
  split <;> rfl

theorem Window.redrawn_redrawn (x : Window) (d : WaitTimer) : (x.redrawn d).redrawn d = x.redrawn d := by
  by_cases h : x.contextWait = true
  · rw [Window.redrawn, Window.redrawn, if_pos h]
    rfl
  · rw [Window.redrawn, Window.redrawn, if_neg h, if_neg h]

theorem State.enterGap_win_of_ne (s : State) {v w : WinId} (h : v ≠ w) :
    (s.enterGap w).win v = if s.reservedCtx w ≠ none then (s.win v).redrawn s.newDelay else s.win v := by
  have hkept (f g : Window → Window) : ((s.modWin w f).modWin w g).win v = s.win v :=
    (State.win_modWin_of_ne _ g h).trans (s.win_modWin_of_ne f h)
  have hdelay : ((s.modWin w fun x => { x with sync := .gap, gapOrigin := some .here }).modWin w fun x =>
      { x with contextWait := false }).newDelay = s.newDelay := rfl
  have hreserved : ((s.modWin w fun x => { x with sync := .gap, gapOrigin := some .here }).modWin w fun x =>
      { x with contextWait := false }).reservedCtx w = s.reservedCtx w := rfl
  simp only [State.enterGap, State.beginDelay]
  rw [State.win_modWin_of_ne _ _ h, State.releaseReservation_win_eq, hkept, hdelay, hreserved]
  by_cases hnone : s.reservedCtx w = none
  · rw [if_neg (fun hc => hc.2 hnone), if_neg (not_not_intro hnone)]
  · rw [if_pos hnone, Window.redrawn]
    by_cases hwait : (s.win v).contextWait = true
    · rw [if_pos ⟨hwait, hnone⟩, if_pos hwait]
    · rw [if_neg fun hc => hwait hc.1, if_neg hwait]

theorem State.enterGap_tx_of_idle {s : State} (h : s.li.tx = .idle) (w : WinId) : (s.enterGap w).li.tx = .idle := by
  simp only [State.enterGap, State.beginDelay]
  rw [State.modWin_li]
  exact (State.releaseReservation_withdraws (s := (s.modWin w fun x =>
    { x with sync := .gap, gapOrigin := some .here }).modWin w fun x => { x with contextWait := false }) w).1 h

section Restart
variable {s : State} {i : Fin 2} {b : Binding}

theorem State.restartContext_of_bound (h : s.ctx i = .bound b) : s.restartContext i = (s.freeContext i).enterGap b.window := by
  rw [State.restartContext, h]

theorem State.restartContext_of_not_bound (h : ∀ w : WinId, (s.ctx i).use ≠ some (true, w)) : s.restartContext i = s := by
  rw [State.restartContext]
  cases hctx : s.ctx i with
  | bound b => exact absurd (congrArg RefreshContext.use hctx) (h b.window)
  | free => rfl
  | reserved w => rfl

theorem RefreshContext.eq_reserved_iff {c : RefreshContext} {w : WinId} : c = .reserved w ↔ c.use = some (false, w) := by
  cases c <;> simp [RefreshContext.use]

theorem RefreshContext.eq_free_iff {c : RefreshContext} : c = .free ↔ c.use = none := by
  cases c <;> simp [RefreshContext.use]

theorem State.ctx_of_use_bound {w : WinId} (h : (s.ctx i).use = some (true, w)) : ∃ b : Binding, s.ctx i = .bound b ∧ b.window = w := by
  cases hctx : s.ctx i with
  | bound b => exact ⟨b, rfl, by simpa [hctx, RefreshContext.use] using h⟩
  | free => simp [hctx, RefreshContext.use] at h
  | reserved w => simp [hctx, RefreshContext.use] at h

theorem State.restartContext_win {w : WinId} (h : (s.ctx i).use = some (true, w)) (v : WinId) :
    (s.restartContext i).win v = if v = w then (s.win v).gapped s.newDelay else (s.win v).redrawn s.newDelay := by
  obtain ⟨b, hctx, rfl⟩ := State.ctx_of_use_bound h
  have hfreed : (s.freeContext i).win v = (s.win v).redrawn s.newDelay := s.freeContext_win i v
  have hdelay : (s.freeContext i).newDelay = s.newDelay := by rw [State.freeContext_eq]; rfl
  rw [State.restartContext_of_bound hctx]
  split
  next hv =>
    subst hv
    rw [State.enterGap_win, hfreed, ← Window.gapped_redrawn]
    exact congrArg (Window.gapped _) hdelay
  next hv =>
    rw [State.enterGap_win_of_ne _ hv, hfreed, hdelay, Window.redrawn_redrawn, ite_self]

theorem State.restartContext_use {w : WinId} (h : (s.ctx i).use = some (true, w)) (j : Fin 2) :
    ((s.restartContext i).ctx j).use = if j = i ∨ (s.ctx j).use = some (false, w) then none else (s.ctx j).use := by
  obtain ⟨b, hctx, rfl⟩ := State.ctx_of_use_bound h
  have hreserved : (s.freeContext i).reservedCtx b.window = some j ↔ (s.ctx j).use = some (false, b.window) := by
    rw [State.reservedCtx, State.findCtx_eq_some_iff]
    simp only [RefreshContext.eq_reserved_iff, State.freeContext_ctx, decide_eq_true_eq, decide_eq_false_iff_not]
    constructor
    · rintro ⟨hj, -⟩
      split at hj
      · exact nomatch hj
      · exact hj
    · intro hj
      have hji : j ≠ i := fun h => by rw [h, hctx] at hj; exact nomatch hj
      refine ⟨by rwa [if_neg hji], fun k hk => ?_⟩
      have hki : k = i := by omega
      rw [if_pos hki]
      exact nofun
  rw [State.restartContext_of_bound hctx, State.enterGap_ctx]
  by_cases hj : (s.ctx j).use = some (false, b.window)
  · rw [if_pos (hreserved.mpr hj), if_pos (Or.inr hj), RefreshContext.use]
  · rw [if_neg fun h => hj (hreserved.mp h), State.freeContext_ctx]
    by_cases hij : j = i
    · rw [if_pos hij, if_pos (Or.inl hij), RefreshContext.use]
    · rw [if_neg hij, if_neg (not_or.mpr ⟨hij, hj⟩)]

theorem State.restartContext_touches : s.TouchesFollower (s.restartContext i) := by
  unfold State.restartContext
  split
  · exact ((State.TouchesFollower.refl s).freeContext i).enterGap _
  · exact .refl s
  · exact .refl s

theorem State.restartContext_tx (h : s.li.tx = .idle) : (s.restartContext i).li.tx = .idle := by
  unfold State.restartContext
  split
  · exact State.enterGap_tx_of_idle (by rw [State.freeContext_eq]; exact h) _
  · exact h
  · exact h

end Restart

/-- A context is bound to window `w`. -/
def State.HasBound (s : State) (w : WinId) : Prop := ∃ i : Fin 2, (s.ctx i).use = some (true, w)

section Restarts
variable {s : State}

/-- The contexts after both have been released. -/
def State.contextsRestarted (s : State) : State := (s.restartContext 0).restartContext 1

theorem State.contextsRestarted_touches : s.TouchesFollower s.contextsRestarted :=
  State.restartContext_touches.trans State.restartContext_touches

theorem State.contextsRestarted_tx (h : s.li.tx = .idle) : s.contextsRestarted.li.tx = .idle :=
  State.restartContext_tx (State.restartContext_tx h)

/-- The first context's release leaves a bound second one bound. -/
theorem State.restartContext_use_bound {w : WinId} :
    ((s.restartContext 0).ctx 1).use = some (true, w) ↔ (s.ctx 1).use = some (true, w) := by
  by_cases h0 : ∃ v : WinId, (s.ctx 0).use = some (true, v)
  · obtain ⟨v, hv⟩ := h0
    rw [State.restartContext_use hv]
    by_cases h1 : (s.ctx 1).use = some (false, v)
    · simp [h1]
    · simp [h1]
  · rw [State.restartContext_of_not_bound (not_exists.mp h0)]

theorem State.contextsRestarted_win_of_bound {v : WinId} (h : s.HasBound v) :
    s.contextsRestarted.win v = (s.win v).gapped s.newDelay := by
  have hdelay : (s.restartContext 0).newDelay = s.newDelay := State.restartContext_touches.newDelay
  have hfirst (h0 : (s.ctx 0).use = some (true, v)) : (s.restartContext 0).win v = (s.win v).gapped s.newDelay := by
    rw [State.restartContext_win h0, if_pos rfl]
  rw [State.contextsRestarted]
  by_cases h1 : ∃ w : WinId, (s.ctx 1).use = some (true, w)
  · obtain ⟨w, hw⟩ := h1
    rw [State.restartContext_win (State.restartContext_use_bound.mpr hw), hdelay]
    by_cases hv : v = w
    · rw [if_pos hv]
      by_cases h0 : ∃ w' : WinId, (s.ctx 0).use = some (true, w')
      · obtain ⟨w', hw'⟩ := h0
        rw [State.restartContext_win hw']
        split
        · exact Window.gapped_gapped _ _
        · exact Window.gapped_redrawn _ _
      · rw [State.restartContext_of_not_bound (not_exists.mp h0)]
    · have h0 : (s.ctx 0).use = some (true, v) := by
        obtain ⟨i, hi⟩ := h
        match i with
        | 0 => exact hi
        | 1 => exact absurd (by simpa [hi] using hw) hv
      rw [if_neg hv, hfirst h0, Window.redrawn_gapped]
  · have h0 : (s.ctx 0).use = some (true, v) := by
      obtain ⟨i, hi⟩ := h
      match i with
      | 0 => exact hi
      | 1 => exact absurd ⟨v, hi⟩ h1
    rw [State.restartContext_of_not_bound fun w hw => h1 ⟨w, State.restartContext_use_bound.mp hw⟩, hfirst h0]

theorem State.contextsRestarted_win_of_frees {v : WinId} (h : ¬s.HasBound v) (hfrees : ∃ w : WinId, s.HasBound w) :
    s.contextsRestarted.win v = (s.win v).redrawn s.newDelay := by
  have hdelay : (s.restartContext 0).newDelay = s.newDelay := State.restartContext_touches.newDelay
  have hfirst {w : WinId} (h0 : (s.ctx 0).use = some (true, w)) :
      (s.restartContext 0).win v = (s.win v).redrawn s.newDelay := by
    rw [State.restartContext_win h0, if_neg fun (hv : v = w) => h ⟨0, hv ▸ h0⟩]
  rw [State.contextsRestarted]
  by_cases h1 : ∃ w : WinId, (s.ctx 1).use = some (true, w)
  · obtain ⟨w, hw⟩ := h1
    rw [State.restartContext_win (State.restartContext_use_bound.mpr hw), hdelay, if_neg fun (hv : v = w) => h ⟨1, hv ▸ hw⟩]
    by_cases h0 : ∃ w' : WinId, (s.ctx 0).use = some (true, w')
    · obtain ⟨w', hw'⟩ := h0
      rw [hfirst hw', Window.redrawn_redrawn]
    · rw [State.restartContext_of_not_bound (not_exists.mp h0)]
  · rw [State.restartContext_of_not_bound fun w hw => h1 ⟨w, State.restartContext_use_bound.mp hw⟩]
    obtain ⟨w, i, hi⟩ := hfrees
    match i with
    | 0 => exact hfirst hi
    | 1 => exact absurd ⟨w, hi⟩ h1

theorem State.contextsRestarted_of_not_frees (h : ¬∃ w : WinId, s.HasBound w) : s.contextsRestarted = s := by
  have hnot (i : Fin 2) (w : WinId) : (s.ctx i).use ≠ some (true, w) := fun hi => h ⟨w, i, hi⟩
  rw [State.contextsRestarted, State.restartContext_of_not_bound (hnot 0), State.restartContext_of_not_bound (hnot 1)]

/-- A free context stays free. -/
theorem State.restartContext_use_of_free {i j : Fin 2} (h : (s.ctx j).use = none) :
    ((s.restartContext i).ctx j).use = none := by
  by_cases hbound : ∃ w : WinId, (s.ctx i).use = some (true, w)
  · obtain ⟨w, hw⟩ := hbound
    rw [State.restartContext_use hw, h, ite_self]
  · rwa [State.restartContext_of_not_bound (not_exists.mp hbound)]

/-- A reservation stays while no context of its window is released. -/
theorem State.restartContext_use_of_reserved {i j : Fin 2} {w : WinId} (h : (s.ctx j).use = some (false, w))
    (hnot : (s.ctx i).use ≠ some (true, w)) : ((s.restartContext i).ctx j).use = some (false, w) := by
  by_cases hbound : ∃ v : WinId, (s.ctx i).use = some (true, v)
  · obtain ⟨v, hv⟩ := hbound
    have hji : j ≠ i := fun hji => by rw [hji, hv] at h; simp at h
    have hvw : (s.ctx j).use ≠ some (false, v) := fun hj => hnot (by rw [hv, show v = w by simpa [hj] using h])
    rw [State.restartContext_use hv, if_neg (not_or.mpr ⟨hji, hvw⟩), h]
  · rwa [State.restartContext_of_not_bound (not_exists.mp hbound)]

theorem State.contextsRestarted_use_of_bound {i : Fin 2} {w : WinId} (h : (s.ctx i).use = some (true, w)) :
    (s.contextsRestarted.ctx i).use = none := by
  match i with
  | 0 => exact State.restartContext_use_of_free (by rw [State.restartContext_use h, if_pos (Or.inl rfl)])
  | 1 =>
    rw [State.contextsRestarted, State.restartContext_use (State.restartContext_use_bound.mpr h), if_pos (Or.inl rfl)]

theorem State.contextsRestarted_use_of_free {i : Fin 2} (h : (s.ctx i).use = none) : (s.contextsRestarted.ctx i).use = none :=
  State.restartContext_use_of_free (State.restartContext_use_of_free h)

theorem State.contextsRestarted_use_of_reserved {i : Fin 2} {w : WinId} (h : (s.ctx i).use = some (false, w)) :
    (s.HasBound w → (s.contextsRestarted.ctx i).use = none) ∧
      (¬s.HasBound w → (s.contextsRestarted.ctx i).use = some (false, w)) := by
  constructor
  · rintro ⟨k, hk⟩
    match k with
    | 0 => exact State.restartContext_use_of_free (by rw [State.restartContext_use hk, if_pos (Or.inr h)])
    | 1 =>
      rw [State.contextsRestarted, State.restartContext_use (State.restartContext_use_bound.mpr hk)]
      by_cases h0 : (s.ctx 0).use = some (true, w)
      · rw [show ((s.restartContext 0).ctx i).use = none by rw [State.restartContext_use h0, if_pos (Or.inr h)], ite_self]
      · rw [if_pos (Or.inr (State.restartContext_use_of_reserved h h0))]
  · intro hnot
    have hfirst := State.restartContext_use_of_reserved (i := 0) h fun h0 => hnot ⟨0, h0⟩
    exact State.restartContext_use_of_reserved hfirst fun h1 => hnot ⟨1, State.restartContext_use_bound.mp h1⟩

end Restarts

/-! ### The ownerships (R152) -/

/-- A window's ownership after SOFT_RESTART. -/
def Window.restarted (x : Window) (mark : Timer) : Window :=
  { x with
    ownership := (match x.ownership with
      | .owner | .granting => .owner
      | .follower | .claiming => .follower)
    grantee := if x.ownership = .granting then none else x.grantee
    returned := if x.ownership = .granting then false else x.returned
    markTimer := if x.ownership = .granting then mark else x.markTimer
    claimAttempts := if x.ownership = .claiming then 0 else x.claimAttempts
    claimTimer := if x.ownership = .claiming then .stopped else x.claimTimer }

/-- The window holds an ownership that was sent back to it (R152). -/
def Window.isReturner (x : Window) : Bool := decide (x.ownership = .granting) && x.returned

/-- FORCED_OWNERSHIP of window `w` recorded. -/
def State.forcedEvent (s : State) (e : EventUnit) (w : WinId) : EventUnit :=
  s.eventIn e { cause := .forcedOwnership, window := some w, station := (s.win w).grantee, sequence := some (s.win w).nextSeq }

section Ownerships
variable {s : State}

theorem Window.restarted_of_quiet {x : Window} (h : x.ownership = .owner ∨ x.ownership = .follower) (mark : Timer) :
    x.restarted mark = x := by
  cases x
  obtain rfl | rfl := h <;> rfl

theorem State.restartOwnership_eq (hruns : s.li.line.runs) (htx : s.li.tx = .idle) (w : WinId)
    (hdue : ∀ x ∈ s.ownerDue, x ≠ .claim w) :
    s.restartOwnership w = { s with
      windows := s.windows.set w ((s.win w).restarted s.freshMarkTimer)
      en := if (s.win w).isReturner then s.forcedEvent s.en w else s.en
      se := { s.se with queue := s.se.queue ++ if (s.win w).isReturner then [(w, .forced)] else [] } } := by
  have hquiet (h : (s.win w).ownership = .owner ∨ (s.win w).ownership = .follower) :
      s.windows.set w ((s.win w).restarted s.freshMarkTimer) = s.windows := by
    rw [Window.restarted_of_quiet h]
    exact congrArg State.windows (s.modWin_self w (fun x => x) rfl)
  cases ho : (s.win w).ownership with
  | owner =>
    rw [hquiet (Or.inl ho)]
    simp [State.restartOwnership, ho, Window.isReturner]
  | follower =>
    rw [hquiet (Or.inr ho)]
    simp [State.restartOwnership, ho, Window.isReturner]
  | claiming =>
    have hfilter : (s.ownerDue.filter fun x => decide (x ≠ .claim w)) = s.ownerDue :=
      List.filter_eq_self.mpr fun x hx => decide_eq_true (hdue x hx)
    have hclaiming : s.restartOwnership w = s.endClaim w := by simp only [State.restartOwnership, ho]
    rw [hclaiming, State.endClaim_of_claiming ho, State.withdrawClaim_eq, hfilter, Window.restarted, ho, Window.isReturner, ho]
    simp [htx, Transmitter.mapOnLine]
    rw [← htx]
  | granting =>
    cases hret : (s.win w).returned with
    | false =>
      simp only [State.restartOwnership, ho, hret]
      simp [Window.restarted, Window.isReturner, ho, hret, State.modWin]
    | true =>
      have hrecord := State.recordEvent_of_runs (s := s.modWin w fun y =>
        { y with ownership := .owner, grantee := none, returned := false, markTimer := s.freshMarkTimer }) hruns
        { cause := .forcedOwnership, window := some w, station := (s.win w).grantee, sequence := some (s.win w).nextSeq }
      simp only [State.restartOwnership, ho, hret, if_true, hrecord]
      simp [Window.restarted, Window.isReturner, ho, hret, State.modWin]
      rfl

/-- The windows of a list restarted one after the other: each by its own fields, with the returners' events and FORCED
entries in the list's order. -/
theorem State.foldl_restartOwnership (l : List WinId) (hl : l.Nodup) (hruns : s.li.line.runs) (htx : s.li.tx = .idle)
    (hdue : ∀ x ∈ s.ownerDue, ∀ w : WinId, x ≠ .claim w) :
    ∃ ws : Vector Window 16,
      l.foldl State.restartOwnership s = { s with
        windows := ws
        en := (l.filter fun w => (s.win w).isReturner).foldl s.forcedEvent s.en
        se := { s.se with queue := s.se.queue ++ (l.filter fun w => (s.win w).isReturner).map fun w => (w, .forced) } } ∧
      ∀ w : WinId, ws[w] = if w ∈ l then (s.win w).restarted s.freshMarkTimer else s.win w := by
  induction l generalizing s with
  | nil => exact ⟨s.windows, by simp, fun w => by simp [State.win]⟩
  | cons a l ih =>
    obtain ⟨ha, hl⟩ := List.nodup_cons.1 hl
    have hstep := State.restartOwnership_eq hruns htx a fun x hx => hdue x hx a
    generalize hen : (if (s.win a).isReturner then s.forcedEvent s.en a else s.en) = en at hstep
    generalize hqueue : (s.se.queue ++ if (s.win a).isReturner then [(a, Origin.forced)] else []) = queue at hstep
    have hwin (w : WinId) : (s.restartOwnership a).win w =
        if w = a then (s.win a).restarted s.freshMarkTimer else s.win w := by
      rw [hstep]
      exact s.win_modWin_eq w a fun _ => (s.win a).restarted s.freshMarkTimer
    have hreturner : (l.filter fun w => ((s.restartOwnership a).win w).isReturner) = l.filter fun w => (s.win w).isReturner :=
      List.filter_congr fun w hw => by rw [hwin, if_neg fun h : w = a => ha (h ▸ hw)]
    obtain ⟨ws, hfold, hws⟩ := ih (s := s.restartOwnership a) hl (by rw [hstep]; exact hruns) (by rw [hstep]; exact htx)
      (by rw [hstep]; exact hdue)
    refine ⟨ws, ?_, fun w => ?_⟩
    · have hevents (e : EventUnit) : (l.filter fun w => (s.win w).isReturner).foldl (s.restartOwnership a).forcedEvent e =
          (l.filter fun w => (s.win w).isReturner).foldl s.forcedEvent e := by
        refine List.foldl_ext _ _ e fun e' w hw => ?_
        have hwa : w ≠ a := fun h => ha (h ▸ List.mem_of_mem_filter hw)
        rw [State.forcedEvent, State.forcedEvent, hwin, if_neg hwa, hstep]
        rfl
      rw [List.foldl_cons, hfold, hreturner, hevents, hstep, ← hen, ← hqueue]
      by_cases hret : (s.win a).isReturner = true
      · simp [hret]
      · simp [hret]
    · rw [hws w, hwin]
      have hmark : (s.restartOwnership a).freshMarkTimer = s.freshMarkTimer := by rw [hstep]; rfl
      rw [hmark]
      by_cases hw : w = a
      · subst hw
        simp [ha]
      · simp [hw]

theorem State.restartOwnerships_eq (hruns : s.li.line.runs) (htx : s.li.tx = .idle) (hqueue : s.se.queue = []) :
    ∃ ws : Vector Window 16,
      s.restartOwnerships = { s with
        windows := ws
        en := (allWindows.filter fun w => (s.win w).isReturner).foldl s.forcedEvent s.en
        se := s.se.withQueue ((allWindows.filter fun w => (s.win w).isReturner).map fun w => (w, .forced))
        ownerDue := s.ownerDue.filter fun x => !x.dropsAtRestart } ∧
      ∀ w : WinId, ws[w] = (s.win w).restarted s.freshMarkTimer := by
  have hdue : ∀ x ∈ (s.withdrawDue OwnerFrame.dropsAtRestart).ownerDue, ∀ w : WinId, x ≠ .claim w := by
    rintro x hx w rfl
    simpa [OwnerFrame.dropsAtRestart] using (List.mem_filter.1 hx).2
  obtain ⟨ws, hfold, hws⟩ := State.foldl_restartOwnership (s := s.withdrawDue OwnerFrame.dropsAtRestart) allWindows
    (by decide) hruns htx hdue
  refine ⟨ws, ?_, fun w => (hws w).trans (if_pos (mem_allWindows w))⟩
  rw [State.restartOwnerships, hfold, ← SweepEngine.promote_eq]
  simp only [State.modSe, State.withdrawDue, hqueue, List.nil_append]
  rfl

end Ownerships

end Sys2Proof.Machine
end

section
/-!
SOFT_RESTART as a whole (R190).
-/

namespace Sys2Proof.Machine

/-- The line at SOFT_RESTART (R23, R190). -/
def LineInterface.restarted (li : LineInterface) (joinInterval : Nat) : LineInterface :=
  { li with tx := .idle, rx := .hunt none, yield := false, faults := 0, recoveryTimer := .stopped, line := .listen,
            joinTimer := .running (joinInterval * 1024) }

theorem State.restartLine_eq (s : State) : s.restartLine = { s with li := s.li.restarted s.lp.params.joinInterval } := rfl

/-- The state with its line restarted and its hold, post queue and sweeps emptied. -/
def State.emptied (s : State) : State := s.restartLine.restartHold.emptyQueue.modSe SweepEngine.clear

/-- Window `x` with mark-now for its posts that are lost (R73). -/
def Window.marked (x : Window) (lost : Bool) : Window := { x with markNow := x.markNow || lost }

/-- The queue holds posts of window `w`. -/
def State.losesPosts (s : State) (w : WinId) : Bool := s.pq.entries.any fun e => decide (e.window = w)

theorem Window.Follows.marked {x y : Window} (h : x.Follows y) (lost : Bool) : (x.marked lost).Follows (y.marked lost) := by
  rw [Window.Follows] at *
  rw [h]
  rfl

/-- `t` is `s` as `State.emptied` leaves it. -/
structure State.Empties (s t : State) : Prop where
  eq : t = { s with
    li := s.li.restarted s.lp.params.joinInterval, rh := { slots := [], work := none }, rm := t.rm,
    pq := { entries := [], mergeHold := false }, se := { s.se with queue := [], current := none },
    windows := t.windows, contexts := t.contexts, en := t.en }
  en : s.rh.work = none → t.en = s.queueDiscarded
  counters : t.en.counters = s.queueDiscarded.counters
  sticky : t.en.sticky = s.queueDiscarded.sticky
  win : ∀ w : WinId, ((s.win w).marked (s.losesPosts w)).Follows (t.win w)
  others : ∀ w : WinId, (∀ k : Work, s.rh.work = some k → k.window ≠ w) → t.win w = (s.win w).marked (s.losesPosts w)
  ctx : ∀ i : Fin 2, (t.ctx i).use = (s.ctx i).use
  mem : s.rm.arb.granted ≠ some .writer → t.rm.mem = s.rm.mem
  sweepReader : t.rm.arb.Without .sweepReader
  writer : s.rh.work ≠ none → t.rm.arb.Without .writer

theorem State.emptied_empties {s : State} : s.Empties s.emptied := by
  have hends := s.restartLine.restartHold_ends
  rw [State.emptied]
  generalize s.restartLine.restartHold = u at hends
  have heq := hends.eq
  have hruns : u.li.line.runs := by rw [heq]; exact ⟨nofun, nofun⟩
  have hpq : u.pq = s.pq := by rw [heq]; rfl
  have hlosses (w : WinId) : (u.pq.entries.any fun e => decide (e.window = w)) = s.losesPosts w := by rw [hpq]; rfl
  have hdiscarded := State.queueDiscarded_counters (s := s) hpq hends.counters hends.sticky
  obtain ⟨ws, hempty, hws⟩ := State.emptyQueue_eq hruns
  rw [hempty]
  refine ⟨?_, fun hidle => ?_, hdiscarded.1, hdiscarded.2, fun w => ?_, fun w hw => ?_, hends.ctx, hends.mem,
    hends.sweepReader, hends.writer⟩
  · rw [heq]
    rfl
  · obtain ⟨-, -, hen⟩ := hends.idle hidle
    change u.queueDiscarded = s.queueDiscarded
    rw [State.queueDiscarded, hpq, hen, heq]
    rfl
  · have hwin := (hends.win w).marked (s.losesPosts w)
    rw [← hlosses] at hwin ⊢
    exact Eq.subst (motive := fun y => ((s.win w).marked _).Follows y) (hws w).symm hwin
  · refine (hws w).trans ?_
    rw [hlosses, hends.others w hw]
    rfl

/-! ### The obligation -/

/-- What SOFT_RESTART leaves behind the emptied blocks. -/
theorem State.softRestart_eq (s : State) :
    ∃ ws : Vector Window 16,
      s.softRestart = { s.emptied.contextsRestarted with
        windows := ws
        en := (allWindows.filter fun w => (s.emptied.contextsRestarted.win w).isReturner).foldl
          s.emptied.contextsRestarted.forcedEvent s.emptied.en
        se := ({ s.se with queue := [], current := none } : SweepEngine).withQueue
          ((allWindows.filter fun w => (s.emptied.contextsRestarted.win w).isReturner).map fun w => (w, .forced))
        ownerDue := s.ownerDue.filter fun x => !x.dropsAtRestart
        mu := { s.mu with outQueue := [] }
        lp := { s.lp with capture := none } } ∧
      ∀ w : WinId, ws[w] = (s.emptied.contextsRestarted.win w).restarted s.freshMarkTimer := by
  have hempties := State.emptied_empties (s := s)
  have hcontexts : s.softRestart = (s.emptied.contextsRestarted.restartOwnerships.modMu fun u =>
      { u with outQueue := [] }).modLp fun lp => { lp with capture := none } := rfl
  rw [hcontexts]
  generalize s.emptied = u at hempties
  have heq := hempties.eq
  have htouches := u.contextsRestarted_touches.eq
  have htx : u.contextsRestarted.li.tx = .idle := State.contextsRestarted_tx (by rw [heq]; rfl)
  have hruns : u.contextsRestarted.li.line.runs := by
    rw [htouches, heq]
    exact ⟨nofun, nofun⟩
  have hse : u.contextsRestarted.se = { s.se with queue := [], current := none } := by rw [htouches, heq]
  have hdue : u.contextsRestarted.ownerDue = s.ownerDue := by rw [htouches, heq]
  have hmu : u.contextsRestarted.mu = s.mu := by rw [htouches, heq]
  have hlp : u.contextsRestarted.lp = s.lp := by rw [htouches, heq]
  have hen : u.contextsRestarted.en = u.en := by rw [htouches]
  have hmark : u.contextsRestarted.freshMarkTimer = s.freshMarkTimer := by rw [htouches, heq]; rfl
  obtain ⟨ws, hown, hws⟩ := State.restartOwnerships_eq hruns htx (by rw [hse])
  refine ⟨ws, ?_, fun w => hmark ▸ hws w⟩
  rw [hown, ← hse, ← hdue, ← hmu, ← hlp, ← hen]
  rfl

theorem State.contextsRestarted_win_frame (s : State) (w : WinId) :
    ∃ (sync : SyncState) (gap : Option GapOrigin) (wait : WaitTimer) (contextWait : Bool),
      s.contextsRestarted.win w = { s.win w with sync := sync, gapOrigin := gap, wait := wait, contextWait := contextWait } := by
  by_cases hbound : s.HasBound w
  · exact ⟨_, _, _, _, State.contextsRestarted_win_of_bound hbound⟩
  by_cases hfrees : ∃ v : WinId, s.HasBound v
  · rw [State.contextsRestarted_win_of_frees hbound hfrees, Window.redrawn]
    split
    · exact ⟨_, _, _, _, rfl⟩
    · exact ⟨_, _, _, _, rfl⟩
  · rw [State.contextsRestarted_of_not_frees hfrees]
    exact ⟨_, _, _, _, rfl⟩

/-- Window `w` behind the emptied blocks and the contexts, before its ownership. -/
theorem State.win_before_ownerships (s : State) (w : WinId) :
    ∃ y : Window, s.emptied.contextsRestarted.win w = y ∧
      y = { (s.win w).marked (s.losesPosts w) with
        sync := y.sync, gapOrigin := y.gapOrigin, wait := y.wait, contextWait := y.contextWait, expected := y.expected,
        behind := y.behind, updated := y.updated, updateCount := y.updateCount } := by
  obtain ⟨sync, gap, wait, contextWait, hcontexts⟩ := s.emptied.contextsRestarted_win_frame w
  have hwin := (State.emptied_empties (s := s)).win w
  refine ⟨_, rfl, ?_⟩
  rw [hcontexts]
  generalize s.emptied.win w = x at hwin
  rw [Window.Follows] at hwin
  rw [hwin]

theorem State.isReturner_before_ownerships (s : State) (w : WinId) :
    (s.emptied.contextsRestarted.win w).isReturner = (s.win w).isReturner := by
  obtain ⟨y, hy, hframe⟩ := s.win_before_ownerships w
  rw [hy, hframe]
  rfl

theorem State.forcedEvent_before_ownerships (s : State) : s.emptied.contextsRestarted.forcedEvent = s.forcedEvent := by
  funext e w
  obtain ⟨y, hy, hframe⟩ := s.win_before_ownerships w
  have hgrantee : y.grantee = (s.win w).grantee := by rw [hframe]; rfl
  have hseq : y.nextSeq = (s.win w).nextSeq := by rw [hframe]; rfl
  rw [State.forcedEvent, State.forcedEvent, hy, hgrantee, hseq, s.emptied.contextsRestarted_touches.eq,
    (State.emptied_empties (s := s)).eq]
  rfl

theorem State.hasBound_iff {s : State} {w : WinId} :
    s.HasBound w ↔ ∃ (i : Fin 2) (b : Binding), s.ctx i = .bound b ∧ b.window = w := by
  constructor
  · rintro ⟨i, hi⟩
    exact ⟨i, State.ctx_of_use_bound hi⟩
  · rintro ⟨i, b, hb, rfl⟩
    exact ⟨i, by rw [hb, RefreshContext.use]⟩

theorem State.emptied_hasBound_iff {s : State} {w : WinId} : s.emptied.HasBound w ↔ s.HasBound w := by
  simp only [State.HasBound, (State.emptied_empties (s := s)).ctx]

theorem State.emptied_newDelay (s : State) : s.emptied.newDelay = s.newDelay := by
  rw [(State.emptied_empties (s := s)).eq]
  rfl

/-- A context's use behind the contexts' release, told from the state before. -/
theorem State.contexts_after_restart (s : State) (i : Fin 2) :
    (∀ b : Binding, s.ctx i = .bound b → s.emptied.contextsRestarted.ctx i = .free) ∧
      (∀ w : WinId, s.ctx i = .reserved w → (s.HasBound w → s.emptied.contextsRestarted.ctx i = .free) ∧
        (¬s.HasBound w → s.emptied.contextsRestarted.ctx i = .reserved w)) ∧
      (s.ctx i = .free → s.emptied.contextsRestarted.ctx i = .free) := by
  have huse := (State.emptied_empties (s := s)).ctx i
  refine ⟨fun b hb => RefreshContext.eq_free_iff.mpr (State.contextsRestarted_use_of_bound (w := b.window) ?_),
    fun w hw => ?_, fun hfree => RefreshContext.eq_free_iff.mpr (State.contextsRestarted_use_of_free ?_)⟩
  · rw [huse, hb, RefreshContext.use]
  · have hreserved : (s.emptied.ctx i).use = some (false, w) := by rw [huse, hw, RefreshContext.use]
    obtain ⟨hbound, hunbound⟩ := State.contextsRestarted_use_of_reserved hreserved
    rw [State.emptied_hasBound_iff] at hbound hunbound
    exact ⟨fun h => RefreshContext.eq_free_iff.mpr (hbound h), fun h => RefreshContext.eq_reserved_iff.mpr (hunbound h)⟩
  · rw [huse, hfree, RefreshContext.use]

/-- What the emptied blocks leave of a window's follow state. -/
theorem State.emptied_win_follow (s : State) (w : WinId) :
    (s.emptied.win w).sync = (s.win w).sync ∧ (s.emptied.win w).gapOrigin = (s.win w).gapOrigin ∧
      (s.emptied.win w).wait = (s.win w).wait ∧ (s.emptied.win w).contextWait = (s.win w).contextWait := by
  have hwin := (State.emptied_empties (s := s)).win w
  rw [Window.Follows] at hwin
  rw [hwin]
  exact ⟨rfl, rfl, rfl, rfl⟩

theorem State.foldl_forcedEvent_counts (s : State) (l : List WinId) (e : EventUnit) :
    (l.foldl s.forcedEvent e).counters = e.counters ∧ (l.foldl s.forcedEvent e).sticky = e.sticky := by
  induction l generalizing e with
  | nil => exact ⟨rfl, rfl⟩
  | cons w l ih =>
    obtain ⟨hcounters, hsticky⟩ := ih (s.forcedEvent e w)
    exact ⟨hcounters.trans (s.eventIn_counters e _), hsticky.trans (s.eventIn_sticky e _)⟩

/-- A window after SOFT_RESTART. -/
theorem State.restarted_window {s : State} {w : WinId} {y : Window} {frees : Prop} (hfrees : (∃ v : WinId, s.HasBound v) ↔ frees)
    (hy : y = (s.emptied.contextsRestarted.win w).restarted s.freshMarkTimer) :
    y = { (s.win w).restarted s.freshMarkTimer with
        markNow := (s.win w).markNow || s.losesPosts w, sync := y.sync, gapOrigin := y.gapOrigin, wait := y.wait,
        contextWait := y.contextWait, expected := y.expected, behind := y.behind, updated := y.updated,
        updateCount := y.updateCount } ∧
      (s.HasBound w → y.sync = .gap ∧ y.gapOrigin = some .here ∧ y.wait = s.newDelay ∧ y.contextWait = false) ∧
      (¬s.HasBound w → y.sync = (s.win w).sync ∧ y.gapOrigin = (s.win w).gapOrigin ∧
        ((s.win w).contextWait = true → frees → y.wait = s.newDelay ∧ y.contextWait = false) ∧
        ((s.win w).contextWait = false ∨ ¬frees → y.wait = (s.win w).wait ∧ y.contextWait = (s.win w).contextWait)) ∧
      ((∀ k : Work, s.rh.work = some k → k.window ≠ w) → y.expected = (s.win w).expected ∧ y.behind = (s.win w).behind ∧
        y.updated = (s.win w).updated ∧ y.updateCount = (s.win w).updateCount) := by
  obtain ⟨hsync, hgap, hwait, hcontext⟩ := s.emptied_win_follow w
  refine ⟨?_, fun hbound => ?_, fun hbound => ?_, fun hwork => ?_⟩
  · obtain ⟨z, hz, hframe⟩ := s.win_before_ownerships w
    rw [hz] at hy
    rw [hy, hframe]
    rfl
  · rw [hy, State.contextsRestarted_win_of_bound (State.emptied_hasBound_iff.mpr hbound), s.emptied_newDelay]
    exact ⟨rfl, rfl, rfl, rfl⟩
  · have hnot : ¬s.emptied.HasBound w := fun h => hbound (State.emptied_hasBound_iff.mp h)
    have hemptied : (∃ v : WinId, s.emptied.HasBound v) ↔ frees := by
      simp only [State.emptied_hasBound_iff]
      exact hfrees
    rw [hy, ← hsync, ← hgap, ← hwait, ← hcontext]
    by_cases hf : frees
    · rw [State.contextsRestarted_win_of_frees hnot (hemptied.mpr hf), s.emptied_newDelay, Window.redrawn]
      by_cases hc : (s.emptied.win w).contextWait = true
      · rw [if_pos hc]
        exact ⟨rfl, rfl, fun _ _ => ⟨rfl, rfl⟩, fun h => absurd (h.resolve_right (not_not_intro hf)) (by simp [hc])⟩
      · rw [if_neg hc]
        exact ⟨rfl, rfl, fun h => absurd h hc, fun _ => ⟨rfl, rfl⟩⟩
    · rw [State.contextsRestarted_of_not_frees fun h => hf (hemptied.mp h)]
      exact ⟨rfl, rfl, fun _ h => absurd h hf, fun _ => ⟨rfl, rfl⟩⟩
  · obtain ⟨sync, gap, wait, contextWait, hcontexts⟩ := s.emptied.contextsRestarted_win_frame w
    rw [hy, hcontexts, (State.emptied_empties (s := s)).others w hwork]
    exact ⟨rfl, rfl, rfl, rfl⟩

/-- Settles O51. -/
theorem softRestart : Obligations.SoftRestart := by
  unfold Obligations.SoftRestart
  intro s hport
  have hexec : exec .softRestart s =
      .next (if s.li.line.receives then s.softRestart.answersDone 0x000D else s.answersRefused 0x000D .wrongState) := by
    simp only [exec, execSoftRestart, State.portFree_of_idlePort hport, if_true, State.done_eq_answersDone,
      State.refuse_eq_answersRefused]
  refine ⟨fun hruns => ?_, fun hruns => ?_⟩
  · rw [hexec, if_neg fun h => hruns (LineState.receives_iff.1 h)]
  intro isBound frees returners discarded
  obtain ⟨ws, hsoft, hws⟩ := s.softRestart_eq
  simp only [State.isReturner_before_ownerships, State.forcedEvent_before_ownerships] at hsoft
  rw [if_pos (LineState.receives_iff.2 hruns), hsoft] at hexec
  have hempties := State.emptied_empties (s := s)
  have heq := hempties.eq
  have htouches := s.emptied.contextsRestarted_touches.eq
  have hkept {α : Type} (f : State → α) (hf : ∀ (t : State) (tx : Transmitter) (cs : Vector RefreshContext 2)
      (vs : Vector Window 16), f { t with li := { t.li with tx := tx }, contexts := cs, windows := vs } = f t) :
      f s.emptied.contextsRestarted = f s.emptied := by rw [htouches, hf]
  have hli : s.emptied.contextsRestarted.li = s.li.restarted s.lp.params.joinInterval := by
    have htx : s.emptied.contextsRestarted.li.tx = .idle := State.contextsRestarted_tx (by rw [heq]; rfl)
    rw [htouches, htx, heq]
    rfl
  have hrm : s.emptied.contextsRestarted.rm = s.emptied.rm := hkept State.rm fun _ _ _ _ => rfl
  have hbounds : (∃ w : WinId, s.HasBound w) ↔ frees := by
    simp only [State.hasBound_iff]
    exact ⟨fun ⟨w, i, b, hb, _⟩ => ⟨i, b, hb⟩, fun ⟨i, b, hb⟩ => ⟨b.window, i, b, hb, rfl⟩⟩
  refine ⟨_, hexec, hli, ?_, ?_, rfl, ?_, rfl, rfl, ?_, ?_, ?_, ?_, ?_, ?_, fun w => ?_, ?_, ?_, ?_, ?_⟩
  · exact (hkept State.rh fun _ _ _ _ => rfl).trans (by rw [heq])
  · exact (hkept State.pq fun _ _ _ _ => rfl).trans (by rw [heq])
  · refine List.filter_congr fun x _ => ?_
    cases x <;> rfl
  · exact (hkept State.maps fun _ _ _ _ => rfl).trans (by rw [heq])
  · exact (hkept State.pending fun _ _ _ _ => rfl).trans (by rw [heq])
  · exact (s.foldl_forcedEvent_counts _ _).1.trans hempties.counters
  · exact (s.foldl_forcedEvent_counts _ _).2.trans hempties.sticky
  · intro hidle
    exact congrArg (fun e : EventUnit => returners.foldl s.forcedEvent e) (hempties.en hidle)
  · intro i
    obtain ⟨hbound, hreserved, hfree⟩ := s.contexts_after_restart i
    simp only [State.hasBound_iff] at hreserved
    exact ⟨hbound, hreserved, hfree⟩
  · have hwindow := State.restarted_window hbounds (hws w)
    rw [State.hasBound_iff] at hwindow
    exact hwindow
  · exact hrm ▸ hempties.sweepReader.1
  · exact hrm ▸ hempties.sweepReader.2
  · exact hrm ▸ hempties.writer
  · exact hrm ▸ hempties.mem

end Sys2Proof.Machine
end

section
/-!
A taken local write that its window's loss of ownership ends, sweeps abandoned, and CLAIM frames (R34, R58, R110, R138 to
R140).
-/

namespace Sys2Proof.Machine

/-! ### A taken write made first (R34) -/

/-- `t` is `s` but for what a taken write of window `w` changes as it is made. -/
structure State.FinishesTaken (s t : State) (w : WinId) : Prop where
  eq : t = { s with lp := { s.lp with cycle := t.lp.cycle, wait := t.lp.wait }, rm := t.rm, windows := t.windows, pq := t.pq,
                    en := t.en }
  win : ∃ (next : Word) (now : Bool), t.win w = { s.win w with nextSeq := next, markNow := now }
  others : ∀ v : WinId, v ≠ w → t.win v = s.win v
  entries : (t.pq.entries.filter fun e => decide (e.window ≠ w)) = s.pq.entries.filter fun e => decide (e.window ≠ w)

section Finish
variable {s : State} {w : WinId} {c : LocalCycle}

theorem State.finishTaken_of_granted (hcycle : s.lp.cycle = some c) (hstage : c.stage.takenFor = some w)
    (hgranted : s.rm.arb.granted = some .localPort) : s.finishTaken w = s.endLocalWrite c := by
  rw [State.finishTaken, hcycle]
  exact if_pos ⟨hstage, decide_eq_true hgranted⟩

theorem State.finishTaken_of_not
    (h : ∀ c : LocalCycle, s.lp.cycle = some c → c.stage.takenFor = some w → s.rm.arb.granted ≠ some .localPort) :
    s.finishTaken w = s := by
  unfold State.finishTaken
  cases hcycle : s.lp.cycle with
  | none => rfl
  | some c => exact if_neg fun hc => h c hcycle hc.1 (of_decide_eq_true hc.2)

/-- `t` is `s` after the effect of a write of window `w`: its bytes, its entry and its number. -/
structure State.WritesPost (s t : State) (w : WinId) : Prop where
  eq : t = { s with rm := t.rm, windows := t.windows, pq := t.pq, en := t.en }
  win : ∃ (next : Word) (now : Bool), t.win w = { s.win w with nextSeq := next, markNow := now }
  others : ∀ v : WinId, v ≠ w → t.win v = s.win v
  entries : (t.pq.entries.filter fun e => decide (e.window ≠ w)) = s.pq.entries.filter fun e => decide (e.window ≠ w)

theorem State.placeWrite_writesPost (s : State) (w : WinId) (offset : Nat) (bytes : List Byte) :
    s.WritesPost (s.placeWrite w offset bytes) w := by
  by_cases hmerge : s.pq.wouldMerge w (s.win w).nextSeq offset bytes.length = true
  · obtain ⟨front, e, hconcat, hwindow, -⟩ := PostQueue.wouldMerge_iff_concat.1 hmerge
    rw [State.placeWrite_of_merge hmerge, PostQueue.mergeTail_concat hconcat]
    refine ⟨rfl, ⟨_, _, rfl⟩, fun _ _ => rfl, ?_⟩
    have hmerged : (e.merge offset bytes).window = w := hwindow
    simp [hconcat, hwindow, hmerged]
  · rw [State.placeWrite_of_append hmerge]
    refine ⟨rfl, ⟨_, _, State.win_modWin _ w _⟩, fun v hv => State.win_modWin_of_ne _ _ hv, ?_⟩
    simp [PostQueue.append]

theorem State.localWriteEffect_writesPost (hstage : c.stage.takenFor = some w) : s.WritesPost (s.localWriteEffect c) w := by
  unfold State.localWriteEffect
  cases hc : c.stage with
  | complete => simp [hc, Stage.takenFor] at hstage
  | read => simp [hc, Stage.takenFor] at hstage
  | privateWrite => simp [hc, Stage.takenFor] at hstage
  | heldWrite v n => exact ⟨rfl, ⟨_, _, rfl⟩, fun _ _ => rfl, rfl⟩
  | allowedWrite v =>
    obtain rfl : v = w := by simpa [hc, Stage.takenFor] using hstage
    have hplaced := (s.writeReplica c.addr c.bytes).placeWrite_writesPost v (s.windowOffset v c) c.bytes
    refine ⟨?_, hplaced.win, hplaced.others, hplaced.entries⟩
    simp only
    rw [hplaced.eq]
    rfl
  | overflowWrite v =>
    obtain rfl : v = w := by simpa [hc, Stage.takenFor] using hstage
    refine ⟨rfl, ⟨_, _, (s.writeReplica c.addr c.bytes).win_modWin v fun x =>
      { x with nextSeq := x.nextSeq + 1, markNow := true }⟩, fun u hu => ?_, rfl⟩
    exact (s.writeReplica c.addr c.bytes).win_modWin_of_ne (fun x =>
      { x with nextSeq := x.nextSeq + 1, markNow := true }) hu

theorem State.endLocalWrite_finishes (hstage : c.stage.takenFor = some w) : s.FinishesTaken (s.endLocalWrite c) w := by
  have heffect := State.localWriteEffect_writesPost (s := s) hstage
  generalize hu : s.localWriteEffect c = u at heffect
  rw [State.endLocalWrite_eq hu]
  exact ⟨by rw [heffect.eq], heffect.win, heffect.others, heffect.entries⟩

theorem State.endLocalWrite_cycle : (s.endLocalWrite c).lp.cycle = some { c with stage := .complete } := rfl

/-- After a taken write of the window has been made, none is to be made. -/
theorem State.finishTaken_finishTaken (s : State) (w : WinId) : (s.finishTaken w).finishTaken w = s.finishTaken w := by
  by_cases h : ∃ c : LocalCycle, s.lp.cycle = some c ∧ c.stage.takenFor = some w ∧ s.rm.arb.granted = some .localPort
  swap
  · have hnot := State.finishTaken_of_not fun c hc hstage hgranted => h ⟨c, hc, hstage, hgranted⟩
    rw [hnot, hnot]
  · obtain ⟨c, hcycle, hstage, hgranted⟩ := h
    rw [State.finishTaken_of_granted hcycle hstage hgranted]
    exact State.finishTaken_of_not fun c' hc' htaken => by
      rw [State.endLocalWrite_cycle, Option.some.injEq] at hc'
      rw [← hc'] at htaken
      exact nomatch htaken

theorem State.finishTaken_writes (s : State) (w : WinId) : s.FinishesTaken (s.finishTaken w) w := by
  by_cases h : ∃ c : LocalCycle, s.lp.cycle = some c ∧ c.stage.takenFor = some w ∧ s.rm.arb.granted = some .localPort
  swap
  · rw [State.finishTaken_of_not fun c hc hstage hgranted => h ⟨c, hc, hstage, hgranted⟩]
    exact ⟨rfl, ⟨_, _, rfl⟩, fun _ _ => rfl, rfl⟩
  · obtain ⟨c, hcycle, hstage, hgranted⟩ := h
    rw [State.finishTaken_of_granted hcycle hstage hgranted]
    exact (State.endLocalWrite_finishes hstage)

/-- The write whose grant is in progress is the one made first (R34, log 5). -/
theorem State.finishTaken_of_finishesWrite {s1 : State} (h : s.finishesWrite s1 w) : s.finishTaken w = s1 := by
  obtain ⟨hgranted, c, hcycle, ⟨hstage, hexec⟩ | ⟨hstage, hexec⟩⟩ := h
  · rw [exec_localWriteGrant hcycle (.inr ⟨w, hstage⟩) hgranted] at hexec
    rw [State.finishTaken_of_granted hcycle (by rw [hstage]; rfl) hgranted]
    exact (Host.Outcome.next.inj hexec)
  · rw [exec_overflowWriteGrant hcycle hstage hgranted] at hexec
    rw [State.finishTaken_of_granted hcycle (by rw [hstage]; rfl) hgranted]
    exact (Host.Outcome.next.inj hexec)

end Finish

/-! ### A waiting taken write refused (R58) -/

section Refuse
variable {s : State} {w : WinId}

theorem State.refuseTaken_of_not (h : ∀ c : LocalCycle, s.lp.cycle = some c → c.stage.takenFor ≠ some w) :
    s.refuseTaken w = s := by
  unfold State.refuseTaken
  cases hcycle : s.lp.cycle with
  | none => rfl
  | some c => exact if_neg (h c hcycle)

theorem State.refuseTaken_of_taken {c : LocalCycle} (hruns : s.li.line.runs) (hcycle : s.lp.cycle = some c)
    (hstage : c.stage.takenFor = some w) :
    s.refuseTaken w = { s with
      rm := { s.rm with arb := s.rm.arb.withdraw .localPort }
      pq := { s.pq with mergeHold := false }
      lp := { s.lp with cycle := some { c with stage := .complete }, wait := false }
      en := s.eventOf { cause := .localWriteRefused, window := some w, station := some (s.win w).recordedOwner,
                        address := some (BitVec.ofNat 16 c.addr) } } := by
  rw [State.refuseTaken, hcycle]
  simp only [if_pos hstage]
  exact State.recordEvent_of_runs (s := ((((s.withdrawRequest .localPort).setMergeHold false).setStage c .complete).setWait
    false)) hruns _

/-- A refusal touches the cycle, its request and the event. -/
theorem State.refuseTaken_frame (s : State) (w : WinId) :
    s.refuseTaken w = { s with
      rm := { s.rm with arb := (s.refuseTaken w).rm.arb },
      pq := { s.pq with mergeHold := (s.refuseTaken w).pq.mergeHold },
      lp := { s.lp with cycle := (s.refuseTaken w).lp.cycle, wait := (s.refuseTaken w).lp.wait }, en := (s.refuseTaken w).en } := by
  unfold State.refuseTaken
  cases hcycle : s.lp.cycle with
  | none => simp
  | some c =>
    by_cases hstage : c.stage.takenFor = some w
    · simp only [if_pos hstage]
      rfl
    · simp [if_neg hstage]

end Refuse

/-! ### A sweep abandoned (R110) -/

section Abandon
variable {s t : State} {w : WinId}

theorem State.abandons_of_abandon (h : t.se = s.se.abandon w (s.beginOnLine w)) : s.abandons t w := by
  unfold State.abandons
  intro beginsOnLine
  have hbegin : s.beginOnLine w = true ↔ beginsOnLine := by
    rw [State.beginOnLine, State.lineHas, Option.any_eq_true]
    simp only [decide_eq_true_eq, beginsOnLine]
  rw [h]
  refine ⟨fun c hc hw => ?_, fun hnone => ?_⟩
  · have habandon := SweepEngine.currentOf_of_window hc hw
    refine ⟨fun hphase hon => ?_, fun hphase hoff => ?_, fun hphase => ?_⟩
    · simp only [SweepEngine.abandon, habandon, hphase, if_pos (hbegin.mpr hon)]
    · simp only [SweepEngine.abandon, habandon, hphase, if_neg fun hc => hoff (hbegin.mp hc)]
      exact SweepEngine.promote_eq { s.se with current := none } s.se.queue
    · cases hp : c.phase with
      | beginDue => exact absurd hp hphase
      | data => simp only [SweepEngine.abandon, habandon, hp]
      | endDue => simp only [SweepEngine.abandon, habandon, hp]
  · simp only [SweepEngine.abandon, SweepEngine.currentOf_of_other hnone]

end Abandon

/-! ### CLAIM frames (R138 to R140) -/

/-- The source is a DENY of window `w`. -/
def Source.isDeny (w : WinId) : Source → Bool
  | .deny v _ => decide (v = w)
  | .grant _ | .takeover _ | .claim _ | .update _ _ | .mark _ | .refreshReq _ | .sweepBegin _ | .sweepData _ | .sweepEnd _
  | .message => false

theorem Source.isDeny_iff {w : WinId} {src : Source} : src.isDeny w = true ↔ ∃ x : Station, src = .deny w x := by
  cases src <;> simp [Source.isDeny]

/-- The frame on the line with a source for which `p` holds marked as withdrawn. -/
def Transmitter.withdrawn (tx : Transmitter) (p : Source → Bool) : Transmitter :=
  tx.mapOnLine fun f => if p f.source then f.withdraw else f

theorem State.withdrawOwnerFrames_eq (s : State) (p : Source → Bool) :
    s.withdrawOwnerFrames p = { s with
      li := { s.li with tx := s.li.tx.withdrawn p }
      ownerDue := s.ownerDue.filter fun x => !p x.source } := rfl

/-- A window that goes from OWNER to GRANTING, its taken write aside (R110, R139, R140). -/
def State.grantingTo (s : State) (w : WinId) (src : Station) : State :=
  { s with
    li := { s.li with tx := s.li.tx.withdrawn (Source.isDeny w) }
    windows := s.windows.set w { s.win w with
      ownership := .granting, grantee := some src, returned := false, markTimer := .stopped }
    se := s.se.abandon w (s.beginOnLine w)
    ownerDue := s.ownerDue.filter fun x => !x.source.isDeny w }

theorem State.enterGranting_eq (s : State) (w : WinId) (src : Station) :
    s.enterGranting w src = ((s.finishTaken w).grantingTo w src).refuseTaken w :=
  congrArg (fun p => State.refuseTaken (State.withdrawOwnerFrames _ p) w) (funext fun src => by cases src <;> rfl)

section Claims
variable {s : State} {w : WinId} {src : Station} {b : Word}

theorem State.handleFor_claim (hshare : (s.win w).role = some .share) : s.handleFor w src (.claim b) = s.handleClaim w src := by
  simp only [State.handleFor, State.shareOnly, hshare]

theorem State.handleClaim_of_owner (howner : (s.win w).ownership = .owner) (hkeep : (s.win w).keep = false) :
    s.handleClaim w src = s.enterGranting w src := by
  simp only [State.handleClaim, if_pos howner, hkeep, Bool.false_eq_true, if_false]

/-- What a claimed window hands over besides its taken write (R110, R139, R140). -/
theorem State.enterGranting_withdrawals :
    s.abandons (s.enterGranting w src) w ∧
      (s.enterGranting w src).ownerDue = s.ownerDue.filter (fun x => !x.source.isDeny w) ∧
      s.withdraws (s.enterGranting w src) fun x => ∃ target : Station, x = .deny w target := by
  have hfinished := (s.finishTaken_writes w).eq
  have hli : (s.finishTaken w).li = s.li := by rw [hfinished]
  have hse : (s.finishTaken w).se = s.se := by rw [hfinished]
  have hdue : (s.finishTaken w).ownerDue = s.ownerDue := by rw [hfinished]
  rw [State.enterGranting_eq, State.refuseTaken_frame]
  refine ⟨State.abandons_of_abandon ?_, ?_, State.withdraws_of_mapOnLine (fun _ => Source.isDeny_iff) ?_⟩
  · simp only [State.grantingTo, State.beginOnLine, State.lineHas, hse, hli]
  · simp only [State.grantingTo, hdue]
  · simp only [State.grantingTo, Transmitter.withdrawn, hli]

theorem State.enterGranting_of_not_taken (h : ∀ c : LocalCycle, s.lp.cycle = some c → c.stage.takenFor ≠ some w) :
    s.enterGranting w src = s.grantingTo w src := by
  rw [State.enterGranting_eq, State.finishTaken_of_not fun c hc hstage => absurd hstage (h c hc)]
  exact State.refuseTaken_of_not h

/-- A write of the window made first leaves it as it is judged. -/
theorem State.finishTaken_judged :
    ((s.finishTaken w).win w).role = (s.win w).role ∧ ((s.finishTaken w).win w).ownership = (s.win w).ownership ∧
      ((s.finishTaken w).win w).keep = (s.win w).keep ∧ ((s.finishTaken w).win w).generation = (s.win w).generation := by
  obtain ⟨next, now, hwin⟩ := (s.finishTaken_writes w).win
  rw [hwin]
  exact ⟨rfl, rfl, rfl, rfl⟩

end Claims

/-- Settles O42. -/
theorem claimFramesAreJudged : Obligations.ClaimFramesAreJudged := by
  unfold Obligations.ClaimFramesAreJudged
  intro s w src b hshare
  rw [State.handleFor_claim hshare]
  refine ⟨fun howner hkeep => ?_, fun howner hkeep => ?_, fun howner => ?_⟩
  · rw [State.handleClaim_of_owner howner hkeep]
    intro t granting
    obtain ⟨habandons, hdue, hwithdraws⟩ := State.enterGranting_withdrawals (s := s) (w := w) (src := src)
    refine ⟨habandons, hdue.trans ?_, hwithdraws, fun hfree => ?_, fun c hruns hcycle hstage hgranted => ?_, fun s1 hs1 => ?_⟩
    · refine List.filter_congr fun x _ => ?_
      cases x <;> simp [OwnerFrame.source, Source.isDeny]
    · have ht : t = s.grantingTo w src := State.enterGranting_of_not_taken hfree
      rw [ht]
      rfl
    · have hnot := State.finishTaken_of_not (s := s) (w := w) fun _ _ _ => hgranted
      have ht : t = (s.grantingTo w src).refuseTaken w := by
        rw [← hnot]
        exact (State.enterGranting_eq s w src).trans (by rw [hnot])
      have howned : ((s.grantingTo w src).win w).recordedOwner = (s.win w).recordedOwner := by
        rw [show (s.grantingTo w src).win w = granting from s.win_modWin w fun _ => granting]
      rw [State.refuseTaken_of_taken (s := s.grantingTo w src) hruns hcycle hstage, howned] at ht
      rw [ht]
      exact ⟨rfl, by simp [Arbiter.withdraw, State.grantingTo]⟩
    · obtain ⟨hrole, hown, hkept, -⟩ := State.finishTaken_judged (s := s) (w := w)
      have hagain := State.finishTaken_finishTaken s w
      rw [State.finishTaken_of_finishesWrite hs1] at hrole hown hkept hagain
      rw [State.handleFor_claim (hrole.trans hshare), State.handleClaim_of_owner (hown.trans howner) (hkept.trans hkeep),
        State.enterGranting_eq, hagain, ← State.finishTaken_of_finishesWrite hs1]
      exact State.enterGranting_eq s w src
  · simp only [State.handleClaim, if_pos howner, if_pos hkeep]
    split
    · rfl
    · rfl
  · simp only [State.handleClaim, if_neg howner]

end Sys2Proof.Machine
end

section
/-!
A window that yields to another owner (R58, R68, R131, R132), and the frames that name an owner (R129, R130, R135, R145,
R148, R151).
-/

namespace Sys2Proof.Machine

/-! ### Yielding (R132) -/

/-- The events of window `w`'s entries as they go (R68). -/
def State.postsDiscarded (s : State) (w : WinId) : EventUnit :=
  match s.pq.entries.filter fun e => decide (e.window = w) with
  | [] => s.en
  | first :: rest =>
    s.eventIn (s.en.bump .postsDiscarded (rest.length + 1))
      { cause := .postsDiscarded, window := some w, sequence := some first.seq }

/-- The window as a follower of the owner that a frame names (R132). -/
def Window.followerOf (x : Window) (owner : Station) (g : Byte) : Window :=
  { x with ownership := .follower, recordedOwner := owner, generation := g, grantee := none, returned := false,
           markTimer := .stopped, markNow := false }

/-- A window that has left OWNER, in GAP's place its old sync state and its taken write still in place (R68, R110, R132). -/
def State.yielding (s : State) (w : WinId) (owner : Station) (g : Byte) : State :=
  ((((s.discardPosts w).abandonSweep w).withdrawOwnerFrames (Source.isOwners w)).modWin w fun x =>
    x.followerOf owner g)

section Yield
variable {s : State} {w : WinId} {owner src : Station} {g : Byte}

theorem State.discardPosts_eq (hruns : s.li.line.runs) :
    s.discardPosts w = { s with
      pq := { s.pq with entries := s.pq.entries.filter fun e => decide (e.window ≠ w) }
      en := s.postsDiscarded w } := by
  rw [State.discardPosts, State.postsDiscarded]
  cases hgone : s.pq.entries.filter fun e => decide (e.window = w) with
  | nil =>
    have hleft : (s.pq.entries.filter fun e => decide (e.window ≠ w)) = s.pq.entries := by
      refine List.filter_eq_self.mpr fun e he => decide_eq_true fun hw => ?_
      have hmem : e ∈ s.pq.entries.filter fun e => decide (e.window = w) := List.mem_filter.mpr ⟨he, decide_eq_true hw⟩
      rw [hgone] at hmem
      exact nomatch hmem
    simp only [hleft]
  | cons first rest => exact State.recordEvent_of_runs (s := { s with
      pq := { s.pq with entries := s.pq.entries.filter fun e => decide (e.window ≠ w) },
      en := s.en.bump .postsDiscarded (rest.length + 1) }) hruns _

theorem State.yielding_eq (hruns : s.li.line.runs) : s.yielding w owner g = { s with
    li := { s.li with tx := s.li.tx.withdrawn (Source.isOwners w) }
    windows := s.windows.set w ((s.win w).followerOf owner g)
    pq := { s.pq with entries := s.pq.entries.filter fun e => decide (e.window ≠ w) }
    se := s.se.abandon w (s.beginOnLine w)
    ownerDue := s.ownerDue.filter fun x => !x.source.isOwners w
    en := s.postsDiscarded w } := by
  rw [State.yielding, State.discardPosts_eq hruns]
  rfl

/-- The window in GAP, with OWNERSHIP_CONFLICT recorded. -/
def State.yielded (s : State) (w : WinId) (owner : Station) (g : Byte) (src : Station) : State :=
  ((s.yielding w owner g).enterGap w).recordEvent { cause := .ownershipConflict, window := some w, station := some src }

theorem State.yieldTo_eq :
    s.yieldTo w owner g src = (((s.finishTaken w).yielded w owner g src).refuseTaken w).retestHeld := rfl

theorem State.yielding_win (hruns : s.li.line.runs) : (s.yielding w owner g).win w = (s.win w).followerOf owner g := by
  rw [State.yielding_eq hruns]
  exact s.win_modWin w fun x => x.followerOf owner g

theorem State.yielding_newDelay (hruns : s.li.line.runs) : (s.yielding w owner g).newDelay = s.newDelay := by
  rw [State.yielding_eq hruns]
  rfl

theorem State.yielded_win (hruns : s.li.line.runs) :
    (s.yielded w owner g src).win w = ((s.win w).followerOf owner g).gapped s.newDelay := by
  refine (State.enterGap_win (s.yielding w owner g) w).trans ?_
  rw [State.yielding_win hruns, State.drawnTimer_eq_newDelay, State.yielding_newDelay hruns]
  rfl

/-- What yielding touches besides the window, the contexts and the frame on the line. -/
theorem State.yielded_eq (hruns : s.li.line.runs) :
    s.yielded w owner g src = { s with
      li := { s.li with tx := (s.yielded w owner g src).li.tx }
      contexts := (s.yielded w owner g src).contexts
      windows := (s.yielded w owner g src).windows
      pq := { s.pq with entries := s.pq.entries.filter fun e => decide (e.window ≠ w) }
      se := s.se.abandon w (s.beginOnLine w)
      ownerDue := s.ownerDue.filter fun x => !x.source.isOwners w
      en := s.eventIn (s.postsDiscarded w) { cause := .ownershipConflict, window := some w, station := some src } } := by
  have htouches := (State.TouchesFollower.refl (s.yielding w owner g)).enterGap w
  have hruns' : (s.yielding w owner g).li.line.runs := by rw [State.yielding_eq hruns]; exact hruns
  have hyielded : s.yielded w owner g src = _ := htouches.recordEvent hruns' _
  have heq := htouches.eq
  rw [hyielded]
  generalize (s.yielding w owner g).enterGap w = u at heq
  rw [heq, State.yielding_eq hruns]
  rfl

/-- Without a reservation the contexts and the other windows stay. -/
theorem State.yielded_of_not_reserved (hruns : s.li.line.runs) (hreserved : s.reservedCtx w = none) :
    s.yielded w owner g src = { s with
      li := { s.li with tx := s.li.tx.withdrawn (Source.isOwners w) }
      windows := s.windows.set w (((s.win w).followerOf owner g).gapped s.newDelay)
      pq := { s.pq with entries := s.pq.entries.filter fun e => decide (e.window ≠ w) }
      se := s.se.abandon w (s.beginOnLine w)
      ownerDue := s.ownerDue.filter fun x => !x.source.isOwners w
      en := s.eventIn (s.postsDiscarded w) { cause := .ownershipConflict, window := some w, station := some src } } := by
  have hnone : (s.yielding w owner g).reservedCtx w = none := by rw [State.yielding_eq hruns]; exact hreserved
  have hgap := State.enterGap_of_not_reserved hnone
  have hwindows : (s.yielded w owner g src).windows = s.windows.set w (((s.win w).followerOf owner g).gapped s.newDelay) := by
    refine (congrArg State.windows hgap).trans ?_
    rw [State.yielding_eq hruns]
    simp [State.modWin, State.win]
    rfl
  have hcontexts : (s.yielded w owner g src).contexts = s.contexts := by
    refine (congrArg State.contexts hgap).trans ?_
    rw [State.yielding_eq hruns]
    rfl
  have htx : (s.yielded w owner g src).li.tx = s.li.tx.withdrawn (Source.isOwners w) := by
    refine (congrArg (fun t : State => t.li.tx) hgap).trans ?_
    rw [State.yielding_eq hruns]
    rfl
  rw [State.yielded_eq hruns, hwindows, hcontexts, htx]

/-- The held and the waiting write leave what yielding has done as it is. -/
theorem State.yieldTo_frame (s : State) (w : WinId) (owner : Station) (g : Byte) (src : Station) :
    let y := (s.finishTaken w).yielded w owner g src
    let t := s.yieldTo w owner g src
    t.windows = y.windows ∧ t.pq.entries = y.pq.entries ∧ t.se = y.se ∧ t.ownerDue = y.ownerDue := by
  intro y t
  have ht : t = (y.refuseTaken w).retestHeld := State.yieldTo_eq
  rw [ht, State.retestHeld_frame, State.refuseTaken_frame]
  exact ⟨rfl, rfl, rfl, rfl⟩

theorem State.yieldTo_of_not_taken (h : ∀ c : LocalCycle, s.lp.cycle = some c → c.stage.takenFor = none)
    (hruns : s.li.line.runs) : s.yieldTo w owner g src = s.yielded w owner g src := by
  have hlp : (s.yielded w owner g src).lp = s.lp := by rw [State.yielded_eq hruns]
  rw [State.yieldTo_eq, State.finishTaken_of_not fun c hc hstage => absurd ((h c hc).symm.trans hstage) nofun,
    State.refuseTaken_of_not fun c hc hstage => absurd ((h c (hlp ▸ hc)).symm.trans hstage) nofun,
    State.retestHeld_of_not_held fun c hc v n hstage => ?_]
  have hnone := h c (hlp ▸ hc)
  rw [hstage] at hnone
  exact nomatch hnone

theorem State.yieldTo_of_waiting {c : LocalCycle} (hruns : s.li.line.runs) (hcycle : s.lp.cycle = some c)
    (hstage : c.stage.takenFor = some w) (hgranted : s.rm.arb.granted ≠ some .localPort) :
    s.yieldTo w owner g src = (s.yielded w owner g src).refuseTaken w := by
  have hyielded := State.yielded_eq (s := s) (w := w) (owner := owner) (g := g) (src := src) hruns
  have hlp : (s.yielded w owner g src).lp = s.lp := by rw [hyielded]
  have hruns' : (s.yielded w owner g src).li.line.runs := by rw [hyielded]; exact hruns
  rw [State.yieldTo_eq, State.finishTaken_of_not fun _ _ _ => hgranted,
    State.refuseTaken_of_taken hruns' (hlp.symm ▸ hcycle) hstage]
  refine State.retestHeld_of_not_held fun c' hc' v n hheld => ?_
  rw [← Option.some.inj hc'] at hheld
  exact nomatch hheld

theorem State.yieldTo_yields (hruns : s.li.line.runs) : s.yields (s.yieldTo w owner g src) w owner g src := by
  have hfinished := s.finishTaken_writes w
  have hli : (s.finishTaken w).li = s.li := by rw [hfinished.eq]
  have hse : (s.finishTaken w).se = s.se := by rw [hfinished.eq]
  have hdue : (s.finishTaken w).ownerDue = s.ownerDue := by rw [hfinished.eq]
  have hdelay : (s.finishTaken w).newDelay = s.newDelay := by rw [hfinished.eq]; rfl
  have hruns' : (s.finishTaken w).li.line.runs := hli.symm ▸ hruns
  obtain ⟨hwindows, hentries, hsweeps, hframes⟩ := s.yieldTo_frame w owner g src
  have hyielded := State.yielded_eq (s := s.finishTaken w) (w := w) (owner := owner) (g := g) (src := src) hruns'
  unfold State.yields
  intro gone discarded conflict follower left
  have hdiscarded : s.postsDiscarded w = discarded := by
    simp only [State.postsDiscarded, discarded, gone]
    cases s.pq.entries.filter fun e => decide (e.window = w) <;> rfl
  have hconflict : s.eventIn (s.postsDiscarded w) { cause := .ownershipConflict, window := some w, station := some src } =
      conflict := congrArg (s.eventIn · _) hdiscarded
  refine ⟨?_, ?_, State.abandons_of_abandon ?_, ?_, fun hfree hreserved => ?_, fun c hcycle hstage hgranted => ?_⟩
  · obtain ⟨next, now, hwin⟩ := hfinished.win
    have hself : (s.yieldTo w owner g src).win w = { follower with nextSeq := next } := by
      rw [State.win_eq_of_windows hwindows, State.yielded_win hruns', hwin, hdelay]
      rfl
    rw [hself]
  · rw [hentries, hyielded]
    exact hfinished.entries
  · rw [hsweeps, hyielded]
    simp only [State.beginOnLine, State.lineHas, hse, hli]
  · rw [hframes, hyielded]
    simp only [hdue]
  · rw [State.yieldTo_of_not_taken hfree hruns, State.yielded_of_not_reserved hruns hreserved, hconflict]
    rfl
  · have hfresh := State.yielded_eq (s := s) (w := w) (owner := owner) (g := g) (src := src) hruns
    have hwin := State.yielded_win (s := s) (w := w) (owner := owner) (g := g) (src := src) hruns
    rw [State.yieldTo_of_waiting hruns hcycle hstage hgranted]
    generalize s.yielded w owner g src = y at hfresh hwin
    have hlp : y.lp = s.lp := by rw [hfresh]
    have hrefused := State.refuseTaken_of_taken (s := y) (w := w) (by rw [hfresh]; exact hruns) (hlp.symm ▸ hcycle) hstage
    rw [hrefused, hwin]
    refine ⟨by rw [hlp], by rw [hfresh], hwin, ?_⟩
    rw [hfresh]
    exact congrArg (s.eventIn · _) hconflict

end Yield

end Sys2Proof.Machine
end

section
/-!
Frames that name another owner, at the station that owns the window and at one that follows it (R79, R129 to R131, R135,
R145, R148, R151).
-/

namespace Sys2Proof.Machine

section Rival
variable {s : State} {w : WinId} {src named : Station} {g : Byte}

theorem State.frameWins_iff : s.frameWins w g named = true ↔
    (1 ≤ (g - (s.win w).generation).toNat ∧ (g - (s.win w).generation).toNat ≤ 127) ∨
      (g = (s.win w).generation ∧ named.toNat < s.station.toNat) := by
  rw [← genCompare_newer_iff, ← genCompare_equal_iff, State.frameWins]
  cases genCompare g (s.win w).generation <;> simp

theorem State.judgeRival_of_wins (h : s.frameWins w g named = true) : s.judgeRival w g named src = s.yieldTo w named g src :=
  if_pos h

theorem State.judgeRival_of_not (h : ¬s.frameWins w g named = true) :
    s.judgeRival w g named src = { s with
      windows := s.windows.set w { s.win w with markNow := true }, en := s.en.bump .conflict 1 } :=
  if_neg h

theorem State.finishesWrite_kept {s1 : State} (h : s.finishesWrite s1 w) :
    s1.station = s.station ∧ (s1.win w).role = (s.win w).role ∧ (s1.win w).owned = (s.win w).owned ∧
      (s1.win w).generation = (s.win w).generation := by
  obtain ⟨hrole, hown, -, hgeneration⟩ := State.finishTaken_judged (s := s) (w := w)
  have heq := (s.finishTaken_writes w).eq
  rw [State.finishTaken_of_finishesWrite h] at hrole hown hgeneration heq
  exact ⟨by rw [heq]; rfl, hrole, by rw [Window.owned, Window.owned, hown], hgeneration⟩

/-- A taken write that is made first leaves the judgement as it is (R34, log 5). -/
theorem State.judgeRival_of_finishesWrite {s1 : State} (h : s.finishesWrite s1 w) (hwins : s.frameWins w g named = true) :
    s.judgeRival w g named src = s1.judgeRival w g named src := by
  have hs1 := State.finishTaken_of_finishesWrite h
  have hagain := State.finishTaken_finishTaken s w
  obtain ⟨hstation, -, -, hgeneration⟩ := State.finishesWrite_kept h
  rw [hs1] at hagain
  have hwins1 : s1.frameWins w g named = true := by
    rw [State.frameWins_iff] at hwins ⊢
    rwa [hgeneration, hstation]
  rw [State.judgeRival_of_wins hwins, State.judgeRival_of_wins hwins1, State.yieldTo_eq, State.yieldTo_eq, hagain, hs1]

/-- A frame of a SHARE window that station `here` judges as `State.judgeRival` does when it owns the window (R131). -/
def Body.IsRival (body : Body) (here : Station) (w : WinId) (src named : Station) (g : Byte) : Prop :=
  ∀ t : State, t.station = here → (t.win w).role = some .share → (t.win w).owned = true →
    t.handleFor w src body = t.judgeRival w g named src

theorem State.rival_judged {body : Body} (hbody : body.IsRival s.station w src named g) (hruns : s.li.line.runs)
    (hshare : (s.win w).role = some .share) (howned : (s.win w).ownership = .owner ∨ (s.win w).ownership = .granting) :
    let t := s.handleFor w src body
    let wins : Prop := (1 ≤ (g - (s.win w).generation).toNat ∧ (g - (s.win w).generation).toNat ≤ 127) ∨
      (g = (s.win w).generation ∧ named.toNat < s.station.toNat)
    (wins → s.yields t w named g src ∧ ∀ s1 : State, s.finishesWrite s1 w → t = s1.handleFor w src body) ∧
      (¬wins → t = { s with windows := s.windows.set w { s.win w with markNow := true }, en := s.en.bump .conflict 1 }) := by
  intro t wins
  have howned' : (s.win w).owned = true := by simpa [Window.owned] using howned
  have ht : t = s.judgeRival w g named src := hbody s rfl hshare howned'
  have hwins : wins ↔ s.frameWins w g named = true := State.frameWins_iff.symm
  rw [ht, hwins]
  refine ⟨fun hwins => ⟨?_, fun s1 hs1 => ?_⟩, State.judgeRival_of_not⟩
  · rw [State.judgeRival_of_wins hwins]
    exact State.yieldTo_yields hruns
  · obtain ⟨hstation, hrole, hown, -⟩ := State.finishesWrite_kept hs1
    rw [hbody s1 hstation (hrole.trans hshare) (hown.trans howned')]
    exact State.judgeRival_of_finishesWrite hs1 hwins

end Rival

section Frames
variable {s : State} {w : WinId} {src : Station} {b : Word} {g : Byte} {last : Word} {rs : List PostRecord} {q : Word}

theorem Body.update_isRival (here : Station) : (Body.update b g rs).IsRival here w src src g := fun t _ hshare howned => by
  simp only [State.handleFor, State.ownerChecked, hshare, if_pos howned]

theorem Body.mark_isRival (here : Station) : (Body.mark b g last).IsRival here w src src g := fun t _ hshare howned => by
  simp only [State.handleFor, State.ownerChecked, hshare, if_pos howned]

theorem Body.takeover_isRival (here : Station) : (Body.takeover b g q).IsRival here w src src g :=
  fun t _ hshare howned => by
    simp only [State.handleFor, State.shareOnly, hshare, State.handleTakeover, if_pos howned]

theorem Body.grant_isRival {here grantee : Station} (h : grantee ≠ here) (returned : Bool) :
    (Body.grant b g q grantee returned).IsRival here w src grantee g := fun t hhere hshare howned => by
  have hne : grantee ≠ t.station := hhere.symm ▸ h
  simp only [State.handleFor, State.shareOnly, hshare, if_neg hne, State.handleGrantElsewhere, if_pos howned]

/-! ### UPDATE and MARK at a follower (R79, R129, R130, R135) -/

theorem State.ownerChecked_of_follower (hshare : (s.win w).role = some .share) (hfollows : s.follows w) (isUpdate : Bool)
    (k : State → Bool → State) :
    s.ownerChecked w src g isUpdate k =
      if (s.win w).passes g src then
        k (if isUpdate then (s.adopt w src g).restartClaim w src else s.adopt w src g)
          (decide (genCompare g (s.win w).generation = .newer))
      else s.foreign := by
  simp only [State.ownerChecked, hshare, if_neg (State.owned_of_followed hfollows)]

theorem Timer.isRunning_iff {t : Timer} : t.isRunning = true ↔ t ≠ .stopped := by
  cases t <;> simp [Timer.isRunning]

theorem State.adopt_restartClaim : (s.adopt w src g).restartClaim w src = { s with
    windows := s.windows.set w { s.win w with
      recordedOwner := src, generation := g,
      claimTimer := if (s.win w).ownership = .claiming ∧ (s.win w).claimTimer ≠ .stopped then
          .running (s.lp.params.claimTimeout * 1024) else (s.win w).claimTimer } } := by
  have hwin : (s.adopt w src g).win w = { s.win w with recordedOwner := src, generation := g } := State.adopt_win src
  rw [State.restartClaim, hwin]
  simp only [Timer.isRunning_iff, and_true]
  by_cases h : (s.win w).ownership = .claiming ∧ (s.win w).claimTimer ≠ .stopped
  · rw [if_pos h, if_pos h]
    simp [State.adopt, State.modWin, State.win]
    rfl
  · rw [if_neg h, if_neg h]
    rfl

end Frames

/-- Settles O45. -/
theorem generationsDecideOwners : Obligations.GenerationsDecideOwners := by
  unfold Obligations.GenerationsDecideOwners
  intro s w src b g last rs hruns hshare newer passes wins
  have hpasses : passes ↔ (s.win w).passes g src = true := Window.passes_iff.symm
  refine ⟨fun hfollows => ⟨fun hnot body hbody => ?_, fun hpass adopted hadopted => ?_⟩, fun howned body hbody => ?_⟩
  · rw [hpasses] at hnot
    rcases hbody with rfl | rfl
    · rw [State.handleFor, State.ownerChecked_of_follower hshare hfollows, if_neg hnot]
      rfl
    · rw [State.handleFor, State.ownerChecked_of_follower hshare hfollows, if_neg hnot]
      rfl
  · have hnewer : decide (genCompare g (s.win w).generation = .newer) = adopted := by
      rw [Bool.eq_iff_iff, decide_eq_true_eq, genCompare_newer_iff, hadopted]
    rw [State.handleFor, State.handleFor, State.ownerChecked_of_follower hshare hfollows,
      State.ownerChecked_of_follower hshare hfollows, if_pos (hpasses.mp hpass), if_pos (hpasses.mp hpass), hnewer,
      if_pos rfl, State.adopt_restartClaim]
    exact ⟨rfl, rfl⟩
  · rcases hbody with rfl | rfl
    · exact State.rival_judged (Body.mark_isRival s.station) hruns hshare howned
    · exact State.rival_judged (Body.update_isRival s.station) hruns hshare howned

/-! ### A new owner at a follower (R148, R151) -/

/-- The window as a follower of a new owner, its claim ended (R129, R137). -/
def Window.adopting (x : Window) (named : Station) (g : Byte) : Window :=
  { x with
    ownership := .follower, recordedOwner := named, generation := g
    claimAttempts := if x.ownership = .claiming then 0 else x.claimAttempts
    claimTimer := if x.ownership = .claiming then .stopped else x.claimTimer }

theorem Window.adopting_of_follower {x : Window} (h : x.ownership = .follower) (named : Station) (g : Byte) :
    x.adopting named g = { x with recordedOwner := named, generation := g } := by
  cases x
  subst h
  rfl

section Adopt
variable {s : State} {w : WinId} {src named : Station} {b : Word} {g : Byte} {q : Word}

/-- The owner adopted, and a claim lost to it. -/
def State.claimLost (s : State) (w : WinId) (named : Station) (g : Byte) : State := (s.adopt w named g).loseClaim w named

theorem State.claimLost_of_claiming (hruns : s.li.line.runs) (hclaiming : (s.win w).ownership = .claiming) :
    s.claimLost w named g = { s with
      li := { s.li with tx := (s.claimLost w named g).li.tx }
      windows := s.windows.set w ((s.win w).adopting named g)
      ownerDue := s.ownerDue.filter fun x => decide (x ≠ .claim w)
      en := s.eventOf { cause := .claimLost, window := some w, station := some named } } := by
  have hwin := State.adopt_win (s := s) (w := w) (g := g) named
  have hclaiming' : ((s.adopt w named g).win w).ownership = .claiming := by rw [hwin]; exact hclaiming
  have hended : (s.adopt w named g).endClaim w = { s with
      li := { s.li with tx := ((s.adopt w named g).endClaim w).li.tx }
      windows := s.windows.set w ((s.win w).adopting named g)
      ownerDue := s.ownerDue.filter fun x => decide (x ≠ .claim w) } := by
    rw [State.endClaim_of_claiming hclaiming', State.withdrawClaim_eq, hwin]
    simp [State.adopt, State.modWin, Window.adopting, hclaiming]
  have hlost : s.claimLost w named g = ((s.adopt w named g).endClaim w).recordEvent
      { cause := .claimLost, window := some w, station := some named } := if_pos hclaiming'
  rw [hlost]
  generalize (s.adopt w named g).endClaim w = u at hended
  rw [hended]
  exact State.recordEvent_of_runs (s := { s with
    li := { s.li with tx := u.li.tx }, windows := s.windows.set w ((s.win w).adopting named g),
    ownerDue := s.ownerDue.filter fun x => decide (x ≠ .claim w) }) hruns _

theorem State.claimLost_of_follower (hfollower : (s.win w).ownership = .follower) :
    s.claimLost w named g = { s with windows := s.windows.set w ((s.win w).adopting named g) } := by
  have hwin := State.adopt_win (s := s) (w := w) (g := g) named
  have hnot : ((s.adopt w named g).win w).ownership ≠ .claiming := by
    rw [hwin]
    simp [hfollower]
  have hkept : s.claimLost w named g = s.adopt w named g := if_neg hnot
  rw [hkept, Window.adopting_of_follower hfollower]
  rfl

/-- What becomes of the ownership as a follower takes a new owner, in either state it follows in. -/
theorem State.claimLost_eq (hruns : s.li.line.runs) (hfollows : s.follows w) :
    s.claimLost w named g = { s with
      li := { s.li with tx := (s.claimLost w named g).li.tx }
      windows := s.windows.set w ((s.win w).adopting named g)
      ownerDue := if (s.win w).ownership = .claiming then s.ownerDue.filter (fun x => decide (x ≠ .claim w)) else s.ownerDue
      en := if (s.win w).ownership = .claiming then
          s.eventOf { cause := .claimLost, window := some w, station := some named } else s.en } := by
  rcases hfollows with h | h
  · have hnot : ¬(s.win w).ownership = .claiming := by simp [h]
    rw [if_neg hnot, if_neg hnot, State.claimLost_of_follower h]
  · rw [if_pos h, if_pos h]
    exact State.claimLost_of_claiming hruns h

theorem State.claimLost_win (hruns : s.li.line.runs) (hfollows : s.follows w) :
    (s.claimLost w named g).win w = (s.win w).adopting named g := by
  rw [State.claimLost_eq hruns hfollows]
  exact s.win_modWin w fun x => x.adopting named g

theorem State.checkNextSeq_of_breaks (hbreaks : (s.win w).sync = .synced ∧ (s.win w).expected ≠ some q) :
    s.checkNextSeq w src q = (s.enterGap w).recordEvent
      { cause := .seqGap, window := some w, station := some src, sequence := (s.win w).expected } :=
  if_pos hbreaks

theorem State.checkNextSeq_of_not (h : ¬((s.win w).sync = .synced ∧ (s.win w).expected ≠ some q)) :
    s.checkNextSeq w src q = s := if_neg h

/-- A follower's new owner, judged by the number its frame names. -/
theorem State.newOwner_followed (hruns : s.li.line.runs) (hfollows : s.follows w) :
    let t := (s.claimLost w named g).checkNextSeq w src q
    let afterClaim : EventUnit := if (s.win w).ownership = .claiming then
      s.eventOf { cause := .claimLost, window := some w, station := some named } else s.en
    let breaks : Prop := (s.win w).sync = .synced ∧ (s.win w).expected ≠ some q
    t.ownerDue = (if (s.win w).ownership = .claiming then s.ownerDue.filter (fun x => decide (x ≠ .claim w))
      else s.ownerDue) ∧
    (¬breaks → t = { s with li := { s.li with tx := t.li.tx }, windows := s.windows.set w ((s.win w).adopting named g),
                            ownerDue := t.ownerDue, en := afterClaim }) ∧
    (breaks →
      t.win w = { (s.win w).adopting named g with sync := .gap, gapOrigin := some .here, contextWait := false,
                                                  wait := s.newDelay } ∧
      t.en = s.eventIn afterClaim { cause := .seqGap, window := some w, station := some src,
                                    sequence := (s.win w).expected } ∧
      t.rm = s.rm ∧ t.rh = s.rh ∧ t.pq = s.pq ∧ t.se = s.se) := by
  intro t afterClaim breaks
  have hlost := State.claimLost_eq (s := s) (w := w) (named := named) (g := g) hruns hfollows
  have hwin := State.claimLost_win (s := s) (w := w) (named := named) (g := g) hruns hfollows
  have hbreak : breaks ↔ ((s.claimLost w named g).win w).sync = .synced ∧ ((s.claimLost w named g).win w).expected ≠ some q := by
    rw [hwin]
    exact Iff.rfl
  by_cases h : breaks
  · have ht : t = ((s.claimLost w named g).enterGap w).recordEvent
        { cause := .seqGap, window := some w, station := some src,
          sequence := ((s.claimLost w named g).win w).expected } := State.checkNextSeq_of_breaks (hbreak.mp h)
    generalize s.claimLost w named g = l at hlost hwin ht
    have hrunsL : l.li.line.runs := by rw [hlost]; exact hruns
    have htouches := (State.TouchesFollower.refl l).enterGap w
    rw [htouches.recordEvent hrunsL, hwin] at ht
    have heq := htouches.eq
    have hgap := State.enterGap_win l w
    generalize l.enterGap w = u at ht heq hgap
    rw [ht]
    refine ⟨by rw [heq, hlost], fun hnot => absurd h hnot, fun _ => ⟨?_, ?_, ?_, ?_, ?_, ?_⟩⟩
    · refine hgap.trans ?_
      rw [hwin, hlost]
      rfl
    · rw [hlost]
      rfl
    · rw [heq, hlost]
    · rw [heq, hlost]
    · rw [heq, hlost]
    · rw [heq, hlost]
  · have ht : t = s.claimLost w named g := State.checkNextSeq_of_not fun hc => h (hbreak.mpr hc)
    rw [ht]
    refine ⟨by rw [hlost], fun _ => ?_, fun hb => absurd hb h⟩
    generalize s.claimLost w named g = l at hlost
    rw [hlost]

end Adopt

/-- Settles O46. -/
theorem grantsElsewhereAndTakeovers : Obligations.GrantsElsewhereAndTakeovers := by
  unfold Obligations.GrantsElsewhereAndTakeovers
  intro s w src b g q hruns hshare
  refine ⟨fun body named hbody => ?_, fun r howned => ?_⟩
  · intro t newer passes wins adopted afterClaim breaks
    have hpasses : passes ↔ (s.win w).passes g named = true := Window.passes_iff.symm
    have hrival : body.IsRival s.station w src named g := by
      obtain ⟨rfl, rfl⟩ | ⟨r, rfl, hne⟩ := hbody
      · exact Body.takeover_isRival s.station
      · exact Body.grant_isRival hne r
    have hfollowed (hfollows : s.follows w) : t =
        if (s.win w).passes g named = true then (s.claimLost w named g).checkNextSeq w src q else s.foreign := by
      have hnot := State.owned_of_followed hfollows
      obtain ⟨rfl, rfl⟩ | ⟨r, rfl, hne⟩ := hbody
      · simp only [t, State.handleFor, State.shareOnly, hshare, State.handleTakeover, if_neg hnot, State.claimLost]
      · simp only [t, State.handleFor, State.shareOnly, hshare, if_neg hne, State.handleGrantElsewhere, if_neg hnot,
          State.claimLost]
    refine ⟨fun hfollows hfail => ?_, fun hfollows hpass => ?_, State.rival_judged hrival hruns hshare⟩
    · rw [hfollowed hfollows, if_neg fun h => hfail (hpasses.mpr h)]
      rfl
    · have ht := (hfollowed hfollows).trans (if_pos (hpasses.mp hpass))
      rw [ht]
      exact State.newOwner_followed hruns hfollows
  · have howned' : (s.win w).owned = true := Window.owned_iff.mpr howned
    rw [State.handleFor_grant_here hshare, State.handleGrantHere, if_pos howned']
    simp only [genCompare_older_iff]
    rfl

end Sys2Proof.Machine
end
